-- ==== Sys2Proof/Word.lean ====
section
/-!
DEFINITION. The plainest data of the engine: bytes, line levels and pin drives.
Spec: 00_scope.md rule R9 (levels, drives, bytes), 10_state.md rules R11, R12.
-/

namespace Sys2Proof

/-- A byte of a buffer: "8-bit unsigned values `0..255`", bit 7 the most significant (R9). -/
abbrev Byte := BitVec 8

/-- The resolved level of the data line (R9, R12). -/
inductive Level where
  | low
  | high
deriving DecidableEq, Repr, Inhabited

/-- What one end does with the open-drain wire: pull it Low, or let it go (R9, R11). -/
inductive Drive where
  | low
  | released
deriving DecidableEq, Repr, Inhabited

end Sys2Proof
end

