-- ==== Sys2Proof/Config.lean ====
section
/-!
DEFINITION. What one implementation of the engine fixes (R5), the constants the document fixes (R4), and the
free values: constants without a body for what the spec leaves open.
Spec: 00_scope.md rules R4 to R7; 92_eei_decisions.md D1, D5, D9, D10, D14, D16; 93_implementation_defined.md.
-/

namespace Sys2Proof

/-- `DECODER` (R5): which of the two Reply Decoders is built in. -/
inductive Decoder where
  | polling
  | interrupt
deriving DecidableEq, Repr, Inhabited

/-- `TIMEOUT_STRATEGY` (R5): how the Interrupt variant's deadline is kept. -/
inductive TimeoutStrategy where
  | timestamp
  | countdown
deriving DecidableEq, Repr, Inhabited

/-- Where the edge handler's bit value comes from. The source names two sub-variants and gives a rule for the
sampled level only (R140): a configuration that asks for the other is refused. -/
inductive BitSource where
  | sampledLevel
  | elapsedTime
deriving DecidableEq, Repr, Inhabited

/-- The parameters of R5. They are the fields of a record that `State` carries and no step changes, so that every
statement about every state is a statement about every configuration. -/
structure Config where
  /-- `S`, ticks per time-unit (R5, R7). -/
  ticksPerUnit : Nat
  /-- `STOP_HIGH_TICKS` (R5, R82). -/
  stopHighTicks : Nat
  /-- `DECODER` (R5). -/
  decoder : Decoder
  /-- `TIMEOUT_STRATEGY` (R5). -/
  timeoutStrategy : TimeoutStrategy
  /-- `TIMEOUT_TICKS` (R5, R6): OPEN in the spec. -/
  timeoutTicks : Nat
  /-- `SAMPLE_DELAY_TICKS`, `d` (R5, R125). -/
  sampleDelayTicks : Nat
  /-- `POLL_HIGH_THRESHOLD` (R5, R105, R106). -/
  pollHighThreshold : Nat
  /-- The edge handler's sub-variant (R140). -/
  bitSource : BitSource
deriving DecidableEq, Repr

/-- The defaults of R5 at `S = 4`. `TIMEOUT_TICKS` has none: `400*S`, the value of the spec's test vectors, stands
in (DESIGN CHOICE, notes/assumptions/2.md, unsafe for a statement about this one configuration). -/
def Config.standard : Config where
  ticksPerUnit := 4
  stopHighTicks := 8
  decoder := .interrupt
  timeoutStrategy := .timestamp
  timeoutTicks := 1600
  sampleDelayTicks := 8
  pollHighThreshold := 8
  bitSource := .sampledLevel

/-- `SCRATCH_CAP` (R4): "capacity of the scratch array = maximum supported reply length". -/
def scratchCap : Nat := 8

/-- `BITS_PER_BYTE` (R4): "bit counter reload value". -/
def bitsPerByte : Nat := 8

/-- `GENUINE_MARK` (R4): the first reply byte of RESET that "signals a genuine device". -/
def genuineMark : Byte := 5

/-- `MIN_POLL_INTERVAL_MS` (R4, R226): a duty of the host; no rule of the engine reads it. -/
def minPollIntervalMs : Nat := 10

/-- The Controller's drive in tick `t`, once the written-out part of the environment (`State.env`) has run out:
"any function from ticks to `{Low, Released}`" (R12, D4). Free. -/
opaque Config.freeDrive : Nat → Drive

/-- A draw of a register that is a natural number and whose value the spec leaves unspecified (R29, U9). Free. -/
opaque Config.freeNat : Nat → Nat

/-- A draw of a byte whose value the spec leaves unspecified (R29, U9). Free. -/
opaque Config.freeByte : Nat → Byte

/-- A draw of a level whose value the spec leaves unspecified (R29: `prevLine`, `pollPrev`). Free. -/
opaque Config.freeLevel : Nat → Level

/-- A draw of a bit whose value the spec leaves unspecified (R29: `savedEnable`, `savedPending`). Free. -/
opaque Config.freeBit : Nat → Bool

end Sys2Proof
end

