-- ==== Sys2Proof/Syntax.lean ====
section
/-!
DEFINITION. The instructions: one constructor per row of spec/opcode_table.json, and the classes of encoding they
are written in. Spec: 00_scope.md rule R1, 30_encoding.md rules R60 to R73.
-/

namespace Sys2Proof

/-- The three symbols of the wire (R62). -/
inductive Symbol where
  | zero
  | one
  | stop
deriving DecidableEq, Repr, Inhabited

/-- The column "format" of spec/opcode_table.json: the rows do not share one space of words. A bit pattern means
something only together with the layer it stands in. -/
inductive Format where
  | commandByte
  | hostOperation
  | lineSymbol
  | lineFrame
  | replyFormat
deriving DecidableEq, Repr, Inhabited

/-- The instruction set of the block (R1): the command codes, the two host operations, the Line Driver's
operations and the host's interpretation of a POLL reply. -/
inductive Instr where
  /-- Command code `0x00` (R154). -/
  | identify
  /-- Command code `0x01` (R155). -/
  | poll
  /-- Command code `0x02`: recognised, rejected (R157). -/
  | read
  /-- Command code `0x03`: recognised, rejected (R158). -/
  | write
  /-- Command code `0xFF` (R156). -/
  | reset
  /-- Every other command code: rejected (R159). -/
  | unsupported (code : Byte)
  /-- The host calls `begin()` (R150). -/
  | begin
  /-- The host calls `runCommand`; its operands stand on the ports (R151 to R153). -/
  | runCommand
  /-- The Line Driver sends the symbol ZERO (R80). -/
  | sendZero
  /-- The Line Driver sends the symbol ONE (R81). -/
  | sendOne
  /-- The Line Driver sends the symbol STOP (R82). -/
  | sendStop
  /-- The Line Driver sends the frame of a command (R83). -/
  | sendCommand (bytes : List Byte)
  /-- The host reads a POLL reply (R160). -/
  | decodePoll (r0 r1 r2 r3 : Byte)
deriving DecidableEq, Repr

/-- The row's entry in the column "format" of spec/opcode_table.json. -/
def Instr.format : Instr → Format
  | .identify | .poll | .read | .write | .reset | .unsupported _ => .commandByte
  | .begin | .runCommand => .hostOperation
  | .sendZero | .sendOne | .sendStop => .lineSymbol
  | .sendCommand _ => .lineFrame
  | .decodePoll _ _ _ _ => .replyFormat

end Sys2Proof
end

