-- ==== Sys2Proof/WellFormed.lean ====
section
/-!
DEFINITION. Which terms of `Instr` stand for an instruction of the table.
Spec: 30_encoding.md rules R60, R67, R69; 40_line_driver.md rule R83; 43_commands.md rule R159.
-/

namespace Sys2Proof

/-- The five codes that rows of their own name (R67): no `unsupported` term may carry one. -/
def namedCodes : List Byte := [0x00, 0x01, 0x02, 0x03, 0xFF]

/-- Why a term is no instruction of the table. -/
inductive IllFormed where
  /-- `unsupported` with a code that has a row of its own (R67, R69). -/
  | codeHasItsOwnRow (code : Byte)
  /-- `sendCommand` of no byte: the operand is `cmd[0..L-1]` with `L >= 1` (R83). -/
  | emptyCommand
deriving DecidableEq, Repr

/-- The check, by name: `none` for a well-formed instruction. -/
def Instr.illFormed : Instr → Option IllFormed
  | .unsupported code => if code ∈ namedCodes then some (.codeHasItsOwnRow code) else none
  | .sendCommand [] => some .emptyCommand
  | .sendCommand (_ :: _) => none
  | .identify | .poll | .read | .write | .reset => none
  | .begin | .runCommand => none
  | .sendZero | .sendOne | .sendStop => none
  | .decodePoll _ _ _ _ => none

/-- A well-formed instruction. -/
def Instr.wf (i : Instr) : Bool := i.illFormed.isNone

end Sys2Proof
end

