-- ==== Sys2Proof/Decode.lean ====
section
/-!
DEFINITION. The encodings: line symbols, the command frame and its waveform, the reference decoder of a frame,
the decoder and the encoder of every row of spec/opcode_table.json.
Spec: 30_encoding.md (R60 to R74), 40_line_driver.md (R80 to R84, R89), 43_commands.md (R159, R160).
-/

namespace Sys2Proof

/-! ### Line symbols (R62) -/

/-- Ticks for which a symbol holds the line Low (R62, R80 to R82). -/
def symbolLowTicks (c : Config) : Symbol → Nat
  | .zero => 3 * c.ticksPerUnit
  | .one => 1 * c.ticksPerUnit
  | .stop => 1 * c.ticksPerUnit

/-- Ticks for which a symbol then leaves the line released (R62, R80 to R82). -/
def symbolReleasedTicks (c : Config) : Symbol → Nat
  | .zero => 1 * c.ticksPerUnit
  | .one => 3 * c.ticksPerUnit
  | .stop => c.stopHighTicks

/-- A whole symbol, one drive per tick: the two `wait`s of R80, R81, R82. -/
def symbolWave (c : Config) (sym : Symbol) : List Drive :=
  List.replicate (symbolLowTicks c sym) .low ++ List.replicate (symbolReleasedTicks c sym) .released

/-- The drive in tick `k` of a symbol. -/
def symbolDrive (c : Config) (sym : Symbol) (k : Nat) : Drive :=
  if k < symbolLowTicks c sym then .low else .released

/-- ZERO carries a 0, ONE a 1 (R61). -/
def bitSymbol (bit : Bool) : Symbol := if bit then .one else .zero

/-- The eight cells of a byte, bit 7 first (R45). -/
def byteSymbols (b : Byte) : List Symbol :=
  [7, 6, 5, 4, 3, 2, 1, 0].map fun i => bitSymbol (b.getLsbD i)

/-! ### The command frame and its waveform (R61, R83, R84) -/

/-- "for each byte, most-significant-bit first, emits `sendOne`/`sendZero` per bit, then a single `sendStop`
after the whole sequence" (R83). -/
def frameSymbols (bytes : List Byte) : List Symbol := bytes.flatMap byteSymbols ++ [.stop]

/-- The frame by R83: the symbols one after the other. -/
def waveform (c : Config) (bytes : List Byte) : List Drive := (frameSymbols bytes).flatMap (symbolWave c)

/-- The cells of a reply: the same two shapes, byte 0 first, bit 7 first, and nothing after them (R63). -/
def replyCells (c : Config) (bytes : List Byte) : List Drive :=
  (bytes.flatMap byteSymbols).flatMap (symbolWave c)

/-- `N`, the length of the frame of `len` bytes in ticks (R15, R61, R84). -/
def frameTicks (c : Config) (len : Nat) : Nat := (32 * len + 1) * c.ticksPerUnit + c.stopHighTicks

/-- Which symbol tick `j` of the frame lies in (R84): cell `b` of byte `i` as long as `j < 32*L*S`, then STOP. -/
def frameSymbolAt (c : Config) (bytes : List Byte) (j : Nat) : Symbol :=
  if j < 32 * bytes.length * c.ticksPerUnit then
    let i := j / (32 * c.ticksPerUnit)
    let b := 7 - (j % (32 * c.ticksPerUnit)) / (4 * c.ticksPerUnit)
    bitSymbol ((bytes.getD i 0).getLsbD b)
  else .stop

/-- `k` of R84: the tick within its symbol of tick `j` of a frame of `len` bytes. -/
def frameOffset (c : Config) (len : Nat) (j : Nat) : Nat :=
  if j < 32 * len * c.ticksPerUnit then j % (4 * c.ticksPerUnit) else j - 32 * len * c.ticksPerUnit

/-- `W(cmd)[j]` by the formula of R84. -/
def waveAt (c : Config) (bytes : List Byte) (j : Nat) : Drive :=
  symbolDrive c (frameSymbolAt c bytes j) (frameOffset c bytes.length j)

/-! ### The reference decoder of a frame (R89) -/

/-- Cut a waveform in front of every tick "where the drive goes from Released to Low" (R89). -/
def splitAtFalls : List Drive → List (List Drive)
  | [] => []
  | d :: rest =>
    match splitAtFalls rest with
    | [] => [[d]]
    | piece :: more =>
      if d = .released ∧ piece.head? = some .low then [d] :: piece :: more
      else (d :: piece) :: more

/-- Length of the Low run a piece begins with. -/
def lowRun : List Drive → Nat
  | .low :: rest => lowRun rest + 1
  | _ => 0

/-- "every piece of `4*S` ticks is a cell whose bit is 1 if its Low run is `S` ticks and 0 if `3*S`" (R89). -/
def pieceBit (c : Config) (piece : List Drive) : Option Bool :=
  if piece.length = 4 * c.ticksPerUnit then
    if lowRun piece = c.ticksPerUnit then some true
    else if lowRun piece = 3 * c.ticksPerUnit then some false
    else none
  else none

/-- "the last piece, of `S + STOP_HIGH_TICKS` ticks, is STOP" (R89). -/
def isStopPiece (c : Config) (piece : List Drive) : Bool :=
  piece.length = c.ticksPerUnit + c.stopHighTicks && lowRun piece = c.ticksPerUnit

/-- The bits of all the pieces but the last, which must be STOP. -/
def pieceBits (c : Config) : List (List Drive) → Option (List Bool)
  | [] => none
  | [last] => if isStopPiece c last then some [] else none
  | piece :: more =>
    match pieceBit c piece, pieceBits c more with
    | some b, some bs => some (b :: bs)
    | _, _ => none

/-- A byte from its bits, bit 7 first. -/
def byteOfBits (b7 b6 b5 b4 b3 b2 b1 b0 : Bool) : Byte :=
  BitVec.ofNat 8 (b7.toNat * 128 + b6.toNat * 64 + b5.toNat * 32 + b4.toNat * 16
    + b3.toNat * 8 + b2.toNat * 4 + b1.toNat * 2 + b0.toNat)

/-- "pack the bits MSB first" (R89); a bit left over is no frame. -/
def packBits : List Bool → Option (List Byte)
  | [] => some []
  | b7 :: b6 :: b5 :: b4 :: b3 :: b2 :: b1 :: b0 :: rest =>
    (packBits rest).map (byteOfBits b7 b6 b5 b4 b3 b2 b1 b0 :: ·)
  | _ => none

/-- The independent reference bit-timing decoder of R89. -/
def refDecode (c : Config) (wave : List Drive) : Option (List Byte) :=
  (pieceBits c (splitAtFalls wave)).bind packBits

/-! ### Words and the decoder -/

/-- A word of the table together with its layer (`Format`). In the two wire layers one entry is one time-unit, as
in the table's pattern strings: "`0` = Low and `1` = released" (R62). -/
inductive Code where
  /-- The command byte `cmd[0]` (R60). -/
  | command (code : Byte)
  /-- The two request ports of R10 in one tick. -/
  | ports (beginReq runReq : Bool)
  /-- One line symbol, a drive per time-unit (R62). -/
  | symbol (units : List Drive)
  /-- A command frame, a drive per time-unit (R61). -/
  | frame (units : List Drive)
  /-- The four bytes of a POLL reply (R64, R65). -/
  | reply (r0 r1 r2 r3 : Byte)
deriving DecidableEq, Repr

/-- The layer a word stands in. -/
def Code.format : Code → Format
  | .command _ => .commandByte
  | .ports _ _ => .hostOperation
  | .symbol _ => .lineSymbol
  | .frame _ => .lineFrame
  | .reply _ _ _ _ => .replyFormat

/-- Why a word is no instruction. -/
inductive DecodeError where
  /-- Neither request port is high: the host asks for nothing in this tick (R10). -/
  | noRequest
  /-- Both request ports are high: the host issues "one call at a time" (R8). -/
  | bothRequests
  /-- The pattern is none of the three symbols (R62). -/
  | notASymbol
  /-- The waveform is no sequence of whole bytes closed by STOP (R61). -/
  | notAFrame
  /-- STOP alone: a command has at least one byte (R83). -/
  | emptyFrame
deriving DecidableEq, Repr

/-- One tick per time-unit and the default STOP: the configuration of the table's own pattern strings (R62). -/
def tableConfig : Config := { Config.standard with ticksPerUnit := 1, stopHighTicks := 2 }

/-- The opcode map (R67): the five named codes, every other code `unsupported`. -/
def decodeCommand (code : Byte) : Instr :=
  if code = 0x00 then .identify
  else if code = 0x01 then .poll
  else if code = 0x02 then .read
  else if code = 0x03 then .write
  else if code = 0xFF then .reset
  else .unsupported code

/-- The decoder, total on every word of every layer, rejecting by name. -/
def decode : Code → Except DecodeError Instr
  | .command code => .ok (decodeCommand code)
  | .ports true false => .ok .begin
  | .ports false true => .ok .runCommand
  | .ports false false => .error .noRequest
  | .ports true true => .error .bothRequests
  | .symbol units =>
    if units = symbolWave tableConfig .zero then .ok .sendZero
    else if units = symbolWave tableConfig .one then .ok .sendOne
    else if units = symbolWave tableConfig .stop then .ok .sendStop
    else .error .notASymbol
  | .frame units =>
    match refDecode tableConfig units with
    | some (b :: bs) => .ok (.sendCommand (b :: bs))
    | some [] => .error .emptyFrame
    | none => .error .notAFrame
  | .reply r0 r1 r2 r3 => .ok (.decodePoll r0 r1 r2 r3)

/-- The encoder: the word of a well-formed instruction, from the tables of R10, R61, R62, R64, R67. -/
def encode : Instr → Code
  | .identify => .command 0x00
  | .poll => .command 0x01
  | .read => .command 0x02
  | .write => .command 0x03
  | .reset => .command 0xFF
  | .unsupported code => .command code
  | .begin => .ports true false
  | .runCommand => .ports false true
  | .sendZero => .symbol (symbolWave tableConfig .zero)
  | .sendOne => .symbol (symbolWave tableConfig .one)
  | .sendStop => .symbol (symbolWave tableConfig .stop)
  | .sendCommand bytes => .frame (waveform tableConfig bytes)
  | .decodePoll r0 r1 r2 r3 => .reply r0 r1 r2 r3

/-! ### Words as numbers, as the table's patterns read -/

/-- The time-units of a pattern of `nbits` characters, the first character the most significant bit. -/
def unitsOfWord (nbits w : Nat) : List Drive :=
  (List.range nbits).map fun i => if w.testBit (nbits - 1 - i) then .released else .low

/-- The number a pattern of time-units reads as, the first character the most significant bit. -/
def wordOfUnits (units : List Drive) : Nat :=
  units.foldl (fun acc d => 2 * acc + (if d = .released then 1 else 0)) 0

/-- The word and layer of a number of `nbits` bits. The layers share small numbers (`1` is POLL as a command byte,
`runCommand` as a pair of ports, `sendZero` as a symbol), and the width is what tells them apart: 2 the request
ports, 3 and 4 a symbol, 8 a command byte, 32 a POLL reply (its first byte in bits 7..0), 32*L+3 a frame. -/
def codeOfWord (nbits w : Nat) : Option Code :=
  if 2 ^ nbits ≤ w then none
  else if nbits = 2 then some (.ports (w.testBit 1) (w.testBit 0))
  else if nbits = 3 ∨ nbits = 4 then some (.symbol (unitsOfWord nbits w))
  else if nbits = 8 then some (.command (BitVec.ofNat 8 w))
  else if nbits = 32 then
    some (.reply (BitVec.ofNat 8 w) (BitVec.ofNat 8 (w / 256)) (BitVec.ofNat 8 (w / 65536))
      (BitVec.ofNat 8 (w / 16777216)))
  else if 35 ≤ nbits ∧ nbits % 32 = 3 then some (.frame (unitsOfWord nbits w))
  else none

/-- The instruction the decoder reads from an instruction whose bits are `w` (see notes/assumptions/5.md for the
rows that share one byte-wide number). -/
def decodeTableWord (nbits w : Nat) : Option Instr :=
  match codeOfWord nbits w with
  | none => none
  | some code =>
    match decode code with
    | .ok i => some i
    | .error _ => none

/-- Width and number of an instruction's word: the inverse of `decodeTableWord`. -/
def encodeTableWord (i : Instr) : Nat × Nat :=
  match encode i with
  | .command code => (8, code.toNat)
  | .ports b r => (2, 2 * b.toNat + r.toNat)
  | .symbol units => (units.length, wordOfUnits units)
  | .frame units => (units.length, wordOfUnits units)
  | .reply r0 r1 r2 r3 => (32, r0.toNat + 256 * r1.toNat + 65536 * r2.toNat + 16777216 * r3.toNat)

end Sys2Proof
end

