-- ==== Sys2Proof/Machine/State.lean ====
section
/-!
DEFINITION. The engine's state as plain data: every port, register and buffer the spec names, the inputs its
outside world still has in store for it, and the reasons a step can stop.
Spec: 10_state.md (R10 to R30), 20_memory.md (R40 to R44), 42_interrupt_decoder.md, 60_exceptions.md.
-/

namespace Sys2Proof.Machine

/-- The sequencer's phase: "the engine's `pc`" (R14). -/
inductive Phase where
  /-- `begin()` has not run since reset. -/
  | uninit
  /-- No transaction in flight. -/
  | idle
  /-- The Line Driver is emitting the command waveform. -/
  | send
  /-- Interrupt variant: armed, spinning on the byte counter and the deadline. -/
  | wait
  /-- Polling variant: busy-wait for the first falling edge. -/
  | firstEdge
  /-- Polling variant: sampling the reply bits. -/
  | pollRx
deriving DecidableEq, Repr, Inhabited

/-- One bit for each competing interrupt source, in the order of R10: tick timer, UART receive, USB. -/
structure Sources where
  tickTimer : Bool
  uartReceive : Bool
  usb : Bool
deriving DecidableEq, Repr, Inhabited

/-- `000`: no source (R25). -/
def Sources.none : Sources := ⟨false, false, false⟩

/-- A byte buffer: an index space `0..size-1` of its own (R40). `cells` lists index and byte in one canonical
form: indices strictly rising and below `size`, no byte 0; an index that is not listed reads as `0x00`
(DESIGN CHOICE, notes/assumptions/4.md). -/
structure Buffer where
  size : Nat
  cells : List Host.Cell
deriving DecidableEq, Repr

/-- The three byte buffers, "and no other storage that an index reaches" (R40). -/
structure Memory where
  /-- The command bytes `cmd[0..L-1]`; the port `cmdLen` is the buffer's size (R10, R41). -/
  cmd : Buffer
  /-- The host's reply buffer (R42). -/
  reply : Buffer
  /-- The engine's scratch, 8 bytes (R19, R43). -/
  scratch : Buffer
deriving DecidableEq, Repr

/-- What the host may do with its own memory in a tick, beside its two calls (R8, R42, R160). -/
inductive HostAccess where
  /-- Apply `decodePoll` to the reply buffer. -/
  | decodePoll
  /-- Write one byte of its reply buffer. -/
  | writeReply (index : Nat) (value : Byte)
  /-- Write one byte of its command buffer. -/
  | writeCmd (index : Nat) (value : Byte)
deriving DecidableEq, Repr

/-- One line of a host script (R73). -/
inductive HostLine where
  /-- `BEGIN`. -/
  | begin
  /-- `RUN <bytes> -> <n>`; `buffer` is the `replyBuffer` operand: `none` passes the buffer of the call before. -/
  | run (bytes : List Byte) (buffer : Option (List Byte)) (replySize : Nat)
  /-- `IDLE <k>`. -/
  | idle (ticks : Nat)
  /-- The host works on its own memory for one tick (the model's own line, beside R73's three). -/
  | access (a : HostAccess)
deriving DecidableEq, Repr

/-- What the engine's surroundings put on its inputs in one tick. -/
structure EnvTick where
  /-- The Controller's drive `drvC(t)` (R12). -/
  drvC : Drive
  /-- The port `rst` (R10). -/
  rst : Bool
  /-- New enable and pending bits of the competing sources, if their own side changes them (R10, R28, U7). -/
  sources : Option (Sources × Sources)
deriving DecidableEq, Repr

/-- The result of `decodePoll` (R65, R160). -/
structure PollReport where
  buttons : BitVec 16
  x : Int
  y : Int
deriving DecidableEq, Repr

/-- The two errors `runCommand` raises (R181, R182, R185). -/
inductive Cause where
  | unsupportedCommand
  | timeout
deriving DecidableEq, Repr, Inhabited

/-- The state before a tick. A register holds the value the rules gave it up to the end of the tick before. -/
structure State where
  /-- The configuration of R5; no step changes it. -/
  cfg : Config
  /-- The number of the tick about to run: `now`, an unbounded natural (R7, R22). -/
  now : Nat
  /-- R14. -/
  phase : Phase
  /-- R15: the waveform index of the last tick sent. -/
  txTick : Nat
  /-- R16: the latched `L`. -/
  cmdLen : Nat
  /-- R16: the latched `n`. -/
  replyLen : Nat
  /-- R16, R22: the accept tick. -/
  t0 : Nat
  /-- R11: the engine's drive of the pin. -/
  drv : Drive
  /-- R13: the level of the line in the tick before. -/
  prevLine : Level
  /-- R17. -/
  bitCounter : Nat
  /-- R18. -/
  byteCounter : Nat
  /-- R19, R40 to R43: the three buffers. -/
  mem : Memory
  /-- R26: "the current output byte". -/
  cur : Byte
  /-- R26: bits decoded so far. -/
  nbits : Nat
  /-- R26: High samples in the current cell. -/
  highCount : Nat
  /-- R26: "the previous sample". -/
  pollPrev : Level
  /-- R10, R27: the return value. -/
  success : Bool
  /-- R10, R27: high in the tick of return. -/
  done : Bool
  /-- R180, D23: the model's own tag beside `success`; not visible to the host. -/
  cause : Option Cause
  /-- R23: the countdown. -/
  cnt : Nat
  /-- R23, R187: the countdown interrupt's enable. -/
  cntRunning : Bool
  /-- R23: raised by the expiry handler. -/
  timeoutFlag : Bool
  /-- R21: the edge interrupt's enable. -/
  armed : Bool
  /-- R20: an edge is waiting for its sample. -/
  samplePending : Bool
  /-- R20: the tick of that sample. -/
  sampleAt : Nat
  /-- R24: global interrupt suppression. -/
  gieInhibit : Bool
  /-- R25: preemption suppression. -/
  suppress : Bool
  /-- R25: the enable bits at acquire. -/
  savedEnable : Sources
  /-- R25: the pending bits at acquire. -/
  savedPending : Sources
  /-- R10: the competing sources' enable bits. -/
  compEnable : Sources
  /-- R10: the competing sources' pending bits. -/
  compPending : Sources
  /-- R10: the port `begin_req` in the coming tick. -/
  beginReq : Bool
  /-- R10: the port `run_req` in the coming tick. -/
  runReq : Bool
  /-- R10: the port `replySize`. -/
  replySize : Nat
  /-- The host's access to its own memory in the coming tick (R42). -/
  access : Option HostAccess
  /-- What the host will do next (R73). -/
  script : List HostLine
  /-- What the surroundings will do next, a tick an entry; when it has run out the Controller's drive is
  `Config.freeDrive` and nothing else happens. -/
  env : List EnvTick
  /-- The model's own counter: how many free values have been drawn. -/
  draws : Nat
  /-- The host's own result of its last `decodePoll` (R160: no engine state). -/
  report : PollReport
deriving DecidableEq, Repr

/-- Why the machine stops with a fault. -/
inductive Fault where
  /-- Raised by the handler body, the step-7 copy, the Polling store and the command fetch: a buffer index outside
  its range, which "a model gives no meaning" (R44). No state a transaction reaches raises it. Safe. -/
  | bufferIndexOutOfRange
deriving DecidableEq, Repr

/-- Why a step has no meaning: the outcome **refused** of R9. -/
inductive Refusal where
  /-- Raised by an arm of `exec` whose instruction has no meaning yet. Safe. -/
  | notModelled (mnemonic : String)
  /-- Raised by `runCommand` and the command codes when `phase = UNINIT` (R151, U3). Safe. -/
  | runBeforeBegin
  /-- Raised by a request that comes while a transaction is in flight (R150, R225, U3). Safe. -/
  | requestWhileBusy
  /-- Raised by fetching when both request ports are high: the host issues "one call at a time" (R8). Safe. -/
  | bothRequests
  /-- Raised by fetching when the host calls the engine and works on its memory in the same tick (R8). Safe. -/
  | callWithAccess
  /-- Raised by a host access to `cmd` or `reply` during a transaction (R41, R42, R55, U15). Safe. -/
  | accessDuringTransaction
  /-- Raised by a host access outside its buffer (R44). Safe. -/
  | hostIndexOutOfRange
  /-- Raised by a command without a byte 0, or a frame of no byte: `cmdLen >= 1` (R151). Safe. -/
  | emptyCommand
  /-- Raised by an accepted code with `replySize` outside `1..8` (R151, U2). Safe. -/
  | replySizeOutOfRange
  /-- Raised by an accepted code whose reply buffer is shorter than `replySize` (R42, R151, U2). Safe. -/
  | replyBufferTooShort
  /-- Raised by an accepted code under a configuration that asks for the elapsed-time sub-variant (R140, U4). Safe. -/
  | elapsedTimeVariant
  /-- Raised by the start of a frame when `S` or `STOP_HIGH_TICKS` is outside the range of R5. Safe. -/
  | configurationOutOfRange
  /-- Raised by the meaning of a command code when another byte stands on the port `cmd[0]`: a step never runs it
  there. Safe. -/
  | commandByteMismatch
  /-- Raised by the meaning of a Line Driver operation outside the phase it belongs to: "None is available to the
  host separately" (R167). A step never runs it there. Safe. -/
  | notSending
deriving DecidableEq, Repr

/-- The machine right after reset: the table of R29; a register it calls unspecified holds the value that
notes/assumptions/1.md names (DESIGN CHOICE). No buffer of the host's, no request, nothing in store. -/
def State.reset : State where
  cfg := Config.standard
  now := 0
  phase := .uninit
  txTick := 0
  cmdLen := 0
  replyLen := 0
  t0 := 0
  drv := .released
  prevLine := .high
  bitCounter := 0
  byteCounter := 0
  mem := { cmd := ⟨0, []⟩, reply := ⟨0, []⟩, scratch := ⟨scratchCap, []⟩ }
  cur := 0
  nbits := 0
  highCount := 0
  pollPrev := .low
  success := false
  done := false
  cause := none
  cnt := 0
  cntRunning := false
  timeoutFlag := false
  armed := false
  samplePending := false
  sampleAt := 0
  gieInhibit := false
  suppress := false
  savedEnable := Sources.none
  savedPending := Sources.none
  compEnable := Sources.none
  compPending := Sources.none
  beginReq := false
  runReq := false
  replySize := 0
  access := none
  script := []
  env := []
  draws := 0
  report := ⟨0, 0, 0⟩

/-- What a step, an instruction's meaning and every operation of the machine that can stop answers. -/
abbrev Result := Host.Outcome State Fault Refusal

end Sys2Proof.Machine
end

