-- ==== Sys2Proof/Machine/Memory.lean ====
section
/-!
DEFINITION. The byte buffers: `MemRead` and `MemWrite` (R44), the zero-fill (R56), the step-7 copy (R134), and the
canonical form they keep. Spec: 20_memory.md.
-/

namespace Sys2Proof.Machine

/-- What an index that no cell lists reads as. -/
def unlistedByte : Byte := 0

/-- The byte a list of cells gives an index. -/
def lookupCell : List Host.Cell → Nat → Byte
  | [], _ => unlistedByte
  | (a, v) :: rest, i => if a = i then v else lookupCell rest i

/-- Set the byte of an index in a list of cells, keeping the canonical form: the unlisted byte is not listed. -/
def storeCell : List Host.Cell → Nat → Byte → List Host.Cell
  | [], i, v => if v = unlistedByte then [] else [(i, v)]
  | (a, w) :: rest, i, v =>
    if i < a then (if v = unlistedByte then (a, w) :: rest else (i, v) :: (a, w) :: rest)
    else if i = a then (if v = unlistedByte then rest else (i, v) :: rest)
    else (a, w) :: storeCell rest i v

/-- Indices strictly rising from `low` on and below `size`, and no byte equal to the unlisted one. -/
def cellsWf (size : Nat) : Nat → List Host.Cell → Bool
  | _, [] => true
  | low, (a, v) :: rest => low ≤ a && a < size && v ≠ unlistedByte && cellsWf size (a + 1) rest

/-- The canonical form of a buffer. -/
def Buffer.wf (b : Buffer) : Bool := cellsWf b.size 0 b.cells

/-- The canonical form of the machine's memory, with the scratch of the size R19 gives it. -/
def Memory.wf (m : Memory) : Bool :=
  m.cmd.wf && m.reply.wf && m.scratch.wf && m.scratch.size = scratchCap

/-- Byte `i` of a buffer; what an index outside the range reads as is asked by nobody. -/
def Buffer.byteAt (b : Buffer) (i : Nat) : Byte := lookupCell b.cells i

/-- `MemRead(buf, i)`: "defined only for `i` inside the buffer's index range" (R44). -/
def memRead (b : Buffer) (i : Nat) : Option Byte := if i < b.size then some (b.byteAt i) else none

/-- `MemWrite(buf, i, v)`: "defined only for `i` inside the buffer's index range" (R44). -/
def memWrite (b : Buffer) (i : Nat) (v : Byte) : Option Buffer :=
  if i < b.size then some { b with cells := storeCell b.cells i v } else none

/-- Zero-fill of the indices `0..n-1` (R56). -/
def zeroFill (b : Buffer) : Nat → Option Buffer
  | 0 => some b
  | n + 1 => (zeroFill b n).bind fun b' => memWrite b' n 0

/-- Step 7: "for i in 0 .. byteCounter-1: MemWrite(reply, i, scratch[i])" (R134). -/
def copyBytes (src dst : Buffer) : Nat → Option Buffer
  | 0 => some dst
  | n + 1 => (copyBytes src dst n).bind fun d => (memRead src n).bind fun v => memWrite d n v

/-- A buffer of zeros. -/
def zeroBuffer (size : Nat) : Buffer := ⟨size, []⟩

/-- Store a list of bytes from index `i` on. -/
def storeBytes (cells : List Host.Cell) : Nat → List Byte → List Host.Cell
  | _, [] => cells
  | i, v :: rest => storeBytes (storeCell cells i v) (i + 1) rest

/-- The buffer that holds a list of bytes. -/
def bufferOf (bytes : List Byte) : Buffer := ⟨bytes.length, storeBytes [] 0 bytes⟩

/-- The first `n` bytes of a buffer, if it has as many. -/
def firstBytes (b : Buffer) (n : Nat) : Option (List Byte) :=
  if n ≤ b.size then some ((List.range n).map b.byteAt) else none

end Sys2Proof.Machine
end

