-- ==== Sys2Proof/Machine/Operands.lean ====
section
/-!
DEFINITION. The operands: legal ranges of the configuration (R5, R6), the command bytes and `replySize` (R66, R151),
the fields of a POLL reply (R65, R160), the bit and byte forms the decoders use (R103, R125).
-/

namespace Sys2Proof.Machine

/-! ### Configuration (R5, R6) -/

/-- The ranges the waveform rests on: `S >= 1`, `1 <= STOP_HIGH_TICKS <= 2*S` (R5). -/
def configSendable (c : Config) : Bool :=
  1 ≤ c.ticksPerUnit && 1 ≤ c.stopHighTicks && c.stopHighTicks ≤ 2 * c.ticksPerUnit

/-- `S <= d <= 3*S - 1` (R5). -/
def sampleDelayLegal (c : Config) : Bool :=
  c.ticksPerUnit ≤ c.sampleDelayTicks && c.sampleDelayTicks + 1 ≤ 3 * c.ticksPerUnit

/-- `S < th <= 3*S` (R5). -/
def thresholdLegal (c : Config) : Bool :=
  c.ticksPerUnit < c.pollHighThreshold && c.pollHighThreshold ≤ 3 * c.ticksPerUnit

/-- All the ranges of R5 but the timeout, which R6 ties to the command and the Controller. -/
def configLegal (c : Config) : Bool :=
  configSendable c && sampleDelayLegal c && thresholdLegal c && decide (c.bitSource = .sampledLevel)

/-- "`TIMEOUT_TICKS > 8*8*4*S = 256*S`" and "`TIMEOUT_TICKS >= N + GAP_MAX + 252*S + SAMPLE_DELAY_TICKS`" (R6), for
commands of `len` bytes and gaps up to `gapMax`. -/
def timeoutLegal (c : Config) (len gapMax : Nat) : Bool :=
  256 * c.ticksPerUnit < c.timeoutTicks
    && frameTicks c len + gapMax + 252 * c.ticksPerUnit + c.sampleDelayTicks ≤ c.timeoutTicks

/-- Does the edge handler have a rule for the bit value under this configuration (R140)? -/
def bitSourceGiven (c : Config) : Bool := decide (c.decoder = .polling ∨ c.bitSource = .sampledLevel)

/-! ### The command and `replySize` (R4, R66, R67, R151) -/

/-- `SUPPORTED` (R4): the accepted codes. -/
def supportedCode (code : Byte) : Bool := code = 0x00 || code = 0x01 || code = 0xFF

/-- `REPLY_LEN` (R4); for a code that is rejected, where no rule reads it, 1. -/
def replyLenOf (code : Byte) : Nat :=
  if code = 0x00 then 3 else if code = 0x01 then 4 else if code = 0xFF then 3 else 1

/-- "`1 <= replySize <= 8`" (R151). -/
def replySizeLegal (n : Nat) : Bool := 1 ≤ n && n ≤ scratchCap

/-- The command byte that validation examines (R41, R60, R152). -/
def commandCode (m : Memory) : Option Byte := memRead m.cmd 0

/-! ### The bit and byte forms of the decoders (R103, R107, R125) -/

/-- "bit <- (line(t) == High) ? 1 : 0" (R125). -/
def sampledBit (l : Level) : Bool := l = .high

/-- "scratch[byteCounter] | (bit << bitCounter)" (R125). -/
def orBit (v : Byte) (bit : Bool) (position : Nat) : Byte :=
  if bit then v ||| (1#8 <<< position) else v

/-- "bit <- (highCount >= POLL_HIGH_THRESHOLD) ? 1 : 0" (R103, R105). -/
def thresholdBit (c : Config) (highCount : Nat) : Bool := c.pollHighThreshold ≤ highCount

/-- "((cur << 1) | bit) & 0xFF" (R103, R107). -/
def shiftIn (cur : Byte) (bit : Bool) : Byte := (cur <<< 1) ||| (if bit then 1#8 else 0#8)

/-! ### The fields of a POLL reply (R47, R65, R160) and the RESET marker (R161) -/

/-- `decodePoll(reply[0..3]) -> (buttons, X, Y)` (R160). -/
def decodePollReply (r0 r1 r2 r3 : Byte) : PollReport where
  buttons := r0 ++ r1
  x := r2.toInt
  y := r3.toInt

/-- `isGenuine(reply) = (reply[0] == 5)` (R161): a predicate of the host's; the engine does not evaluate it. -/
def isGenuine (reply : Buffer) : Bool := memRead reply 0 = some genuineMark

end Sys2Proof.Machine
end

