-- ==== Sys2Proof/Machine/Flags.lean ====
section
/-!
DEFINITION. The flags: `success` and `done` with the cause beside them (R27, R180), the deadline test
(R129, R132), the interrupt regimes (R195).
-/

namespace Sys2Proof.Machine

/-- `success = (byteCounter == replySize)`, evaluated at step 8 (R27, R135). -/
def replyComplete (s : State) : Bool := s.byteCounter = s.replyLen

/-- `timedOut(t)`: `t - t0 >= TIMEOUT_TICKS` for Timestamp, `timeoutFlag == 1` for Countdown (R132). -/
def timedOut (s : State) : Bool :=
  match s.cfg.timeoutStrategy with
  | .timestamp => s.cfg.timeoutTicks ≤ s.now - s.t0
  | .countdown => s.timeoutFlag

/-- `runCommand` returns in this tick: `success`, `done`, and the tag of R180. -/
def returnCall (ok : Bool) (cause : Option Cause) (s : State) : State :=
  { s with success := ok, done := true, cause := cause }

/-- The regimes of R195. -/
inductive Regime where
  /-- `IDLE`, `UNINIT`: the engine is passive. -/
  | openRegime
  /-- `SEND`, `FIRSTEDGE`, `POLLRX`: nothing but the main flow. -/
  | suppressed
  /-- `WAIT`: the wait loop and the two handlers. -/
  | armed
deriving DecidableEq, Repr

/-- The regime a phase runs in (R195). -/
def regimeOf : Phase → Regime
  | .uninit | .idle => .openRegime
  | .send | .firstEdge | .pollRx => .suppressed
  | .wait => .armed

/-- Is a transaction in flight? -/
def busy (s : State) : Bool :=
  match s.phase with
  | .uninit | .idle => false
  | .send | .wait | .firstEdge | .pollRx => true

end Sys2Proof.Machine
end

