-- ==== Sys2Proof/Machine/Ops.lean ====
section
/-!
DEFINITION. The operations the meanings share: the line, the tick's beginning and end, raising an error, taking the
two interrupts and returning from them, acquire and release, the steps of a transaction, reset.
Spec: 10_state.md, 42_interrupt_decoder.md, 60_exceptions.md.
-/

namespace Sys2Proof.Machine

/-- Go on with the next state; a fault or a refusal stops. -/
def andThen (r : Result) (f : State → Result) : Result :=
  match r with
  | .next s => f s
  | .fault e => .fault e
  | .refused e => .refused e

/-! ### The line (R12, R13) -/

/-- `drvC(t)` in the coming tick: what the environment has in store, a free drive after that (R12, D4). -/
def controllerDrive (s : State) : Drive :=
  match s.env with
  | e :: _ => e.drvC
  | [] => Config.freeDrive s.now

/-- "`line(t) = Low` if `drvE(t) = Low` or `drvC(t) = Low`; otherwise `line(t) = High`" (R12). -/
def resolve (engine controller : Drive) : Level :=
  if engine = .low ∨ controller = .low then .low else .high

/-- `line(t)`, read by `sampleLine()`: the engine's drive is the one this tick has put out. -/
def lineLevel (s : State) : Level := resolve s.drv (controllerDrive s)

/-- "`prevLine = High and line(t) = Low`" (R13). -/
def fallingEdge (s : State) : Bool := s.prevLine = .high && lineLevel s = .low

/-- The port `rst` in the coming tick (R10). -/
def rstLevel (s : State) : Bool :=
  match s.env with
  | e :: _ => e.rst
  | [] => false

/-! ### Initialisation (R29, R150) -/

/-- What `begin()` leaves: the three writes of R150 and the values R29 gives in its column "value after `begin()`"
(notes/assumptions/17.md). Of the five registers R150 does not write, only `timeoutFlag` can hold another value in
`UNINIT` or `IDLE` (R30). -/
def initialise (s : State) : State :=
  { s with
    drv := .released
    armed := false
    phase := .idle
    samplePending := false
    gieInhibit := false
    suppress := false
    cntRunning := false
    timeoutFlag := false }

/-! ### Errors (R180) -/

/-- `raise <Error>`: "end the transaction ... with `success = false` and the named cause" (R9, R180). -/
def raiseError (cause : Cause) (s : State) : State := returnCall false (some cause) s

/-! ### Preemption suppression and the steps of §4.3 in the accept tick -/

/-- Acquire (R136). -/
def acquireSources (s : State) : State :=
  { s with
    savedEnable := s.compEnable
    savedPending := s.compPending
    compEnable := Sources.none
    suppress := true }

/-- Release (R137). -/
def releaseSources (s : State) : State :=
  { s with
    compEnable := s.savedEnable
    compPending := s.savedPending
    suppress := false }

/-- Step 1 (R120). -/
def resetTransactionState (s : State) : State :=
  { s with
    mem := { s.mem with scratch := zeroBuffer scratchCap }
    bitCounter := bitsPerByte
    byteCounter := 0
    samplePending := false }

/-- Step 2 (R121); `t0` itself is latched with the operands (R16). -/
def startTimer (s : State) : State :=
  match s.cfg.timeoutStrategy with
  | .timestamp => s
  | .countdown => { s with cnt := s.cfg.timeoutTicks, cntRunning := true, timeoutFlag := false }

/-- The accept tick captures `L`, `n` and `t0` (R16). -/
def latchOperands (s : State) : State :=
  { s with cmdLen := s.mem.cmd.size, replyLen := s.replySize, t0 := s.now }

/-! ### The countdown and its interrupt (R23, R128, R187, R192) -/

/-- The expiry handler: "sets `timeoutFlag`, clears `cntRunning`, touches nothing else" (R192). -/
def expiryHandler (s : State) : State := { s with timeoutFlag := true, cntRunning := false }

/-- One tick of the countdown (R128). At zero the expiry handler runs; while global interrupts are suppressed it is
held off (R187, R189; 90_conflicts.md C8). -/
def countdownTick (s : State) : State :=
  if s.cfg.timeoutStrategy = .countdown ∧ s.cntRunning = true then
    let s1 := { s with cnt := s.cnt - 1 }
    if s1.cnt = 0 ∧ s1.gieInhibit = false then expiryHandler s1 else s1
  else s

/-! ### The edge interrupt (R124 to R127, R186, R191, R193) -/

/-- May an edge enter the handler? `armed = 1`, no run pending, the reply not complete (R124, R127), and global
interrupts not suppressed (R186, R189). -/
def edgeGate (s : State) : Bool :=
  s.armed && !s.samplePending && s.byteCounter < s.replyLen && !s.gieInhibit

/-- Entry (R124, R191): "`samplePending <- 1; sampleAt <- t + d`. Nothing else changes". -/
def enterHandler (s : State) : State :=
  { s with samplePending := true, sampleAt := s.now + s.cfg.sampleDelayTicks }

/-- The body (R125), one atomic run; it returns to the wait loop with nothing to restore (R193). -/
def handlerBody (s : State) : Result :=
  let position := s.bitCounter - 1
  match memRead s.mem.scratch s.byteCounter with
  | none => .fault .bufferIndexOutOfRange
  | some v =>
    match memWrite s.mem.scratch s.byteCounter (orBit v (sampledBit (lineLevel s)) position) with
    | none => .fault .bufferIndexOutOfRange
    | some scratch =>
      if position = 0 then
        .next { s with
          mem := { s.mem with scratch := scratch }
          bitCounter := bitsPerByte
          byteCounter := s.byteCounter + 1
          samplePending := false }
      else
        .next { s with
          mem := { s.mem with scratch := scratch }
          bitCounter := position
          samplePending := false }

/-- Line 1 of R138: the body in its tick, else the entry on an edge, else nothing. -/
def edgeHandler (s : State) : Result :=
  if s.samplePending = true ∧ s.now = s.sampleAt then handlerBody s
  else if fallingEdge s = true ∧ edgeGate s = true then .next (enterHandler s)
  else .next s

/-! ### The tick around an instruction -/

/-- The competing sources' own side sets its bits while they are not suppressed (R10, R25, U7). -/
def sampleSources (s : State) : State :=
  match s.env with
  | ⟨_, _, some (enable, pending)⟩ :: _ =>
    if s.suppress then s else { s with compEnable := enable, compPending := pending }
  | _ => s

/-- Does the host ask for something on the ports in the coming tick? -/
def requestPresent (s : State) : Bool := s.beginReq || s.runReq || s.access.isSome

/-- The host issues the next line of its script (R73); an `IDLE` with no tick left issues the line behind it. -/
def presentLine (s : State) : List HostLine → State
  | [] => { s with script := [] }
  | .idle 0 :: rest => presentLine s rest
  | .idle (k + 1) :: rest => { s with script := .idle k :: rest }
  | .begin :: rest => { s with script := rest, beginReq := true }
  | .run bytes buffer n :: rest =>
    { s with
      script := rest
      runReq := true
      replySize := n
      mem := { s.mem with
        cmd := bufferOf bytes
        reply := match buffer with
          | some contents => bufferOf contents
          | none => s.mem.reply } }
  | .access a :: rest => { s with script := rest, access := some a }

/-- The host is blocked while a transaction is in flight (R8, R153); else it issues its next line, unless a request
already stands on the ports. A call that a tick of `rst` cut off blocks it no longer: the spec does not say what becomes
of such a call, and that the host takes it as over, with no `done`, is the model's choice (DESIGN CHOICE,
notes/assumptions/27.md). -/
def presentHost (s : State) : State :=
  if busy s = true ∨ requestPresent s = true then s else presentLine s s.script

/-- What precedes the tick's own work: `done` was high for one tick (R27), the surroundings and the host set their
inputs. -/
def beginTick (s : State) : State := presentHost (sampleSources { s with done := false })

/-- What ends every tick: `prevLine <- line(t)` "after all other rules of the tick have read it" (R13); the inputs
of this tick are over. -/
def endTick (s : State) : State :=
  { s with
    prevLine := lineLevel s
    now := s.now + 1
    env := s.env.tail
    beginReq := false
    runReq := false
    access := none }

/-! ### Reset (R10, R29) -/

/-- Three draws. -/
def freeSources (draw : Nat) : Sources :=
  ⟨Config.freeBit draw, Config.freeBit (draw + 1), Config.freeBit (draw + 2)⟩

/-- Eight drawn bytes in the scratch. -/
def freeScratch (draw : Nat) : Buffer :=
  bufferOf ((List.range scratchCap).map fun i => Config.freeByte (draw + i))

/-- A tick with `rst` high: every register at its value in R29; a register R29 calls unspecified takes a free value
of its width (D18, D19). A transaction in flight is dropped without `done`, and its call with it (DESIGN CHOICE,
notes/assumptions/27.md). Host memory, the host's script and the competing sources' own bits are not the engine's. -/
def rstTick (s : State) : State :=
  { s with
    now := s.now + 1
    env := s.env.tail
    beginReq := false
    runReq := false
    access := none
    phase := .uninit
    drv := .released
    armed := false
    samplePending := false
    gieInhibit := false
    suppress := false
    cntRunning := false
    timeoutFlag := false
    success := false
    done := false
    cause := none
    prevLine := Config.freeLevel s.draws
    pollPrev := Config.freeLevel (s.draws + 1)
    bitCounter := Config.freeNat s.draws % 16
    byteCounter := Config.freeNat (s.draws + 1) % 16
    nbits := Config.freeNat (s.draws + 2) % 128
    highCount := Config.freeNat (s.draws + 3)
    txTick := Config.freeNat (s.draws + 4)
    t0 := Config.freeNat (s.draws + 5)
    cmdLen := Config.freeNat (s.draws + 6)
    replyLen := Config.freeNat (s.draws + 7)
    cnt := Config.freeNat (s.draws + 8)
    sampleAt := Config.freeNat (s.draws + 9)
    cur := Config.freeByte (s.draws + scratchCap)
    mem := { s.mem with scratch := freeScratch s.draws }
    savedEnable := freeSources s.draws
    savedPending := freeSources (s.draws + 3)
    draws := s.draws + 10 }

end Sys2Proof.Machine
end

