-- ==== Sys2Proof/Machine/Interrupt.lean ====
section
/-!
DEFINITION. The receive path of the Interrupt-Driven Reply Decoder: steps 4 to 8 and one tick of `WAIT`.
Spec: 42_interrupt_decoder.md (R123, R131 to R135, R137, R138).
-/

namespace Sys2Proof.Machine

/-- Step 6 (R133). -/
def disarm (s : State) : State :=
  { s with armed := false, samplePending := false, cntRunning := false }

/-- Step 8 (R135): success when the reply is complete, else the error Timeout (R182). -/
def returnReply (s : State) : State :=
  if replyComplete s then returnCall true none s else raiseError .timeout s

/-- Step 6, release, step 7, step 8, in the order of R138. -/
def finishInterrupt (s : State) : Result :=
  let s1 := releaseSources (disarm s)
  match copyBytes s1.mem.scratch s1.mem.reply s1.byteCounter with
  | none => .fault .bufferIndexOutOfRange
  | some reply =>
    .next { returnReply { s1 with mem := { s1.mem with reply := reply } } with phase := .idle }

/-- Step 5, line 3 of R138: the completion test, then the timeout test (R131, R132). -/
def waitTests (s : State) : Result :=
  if replyComplete s then finishInterrupt s
  else if timedOut s then finishInterrupt s
  else .next s

/-- One tick of `WAIT` (R138): handler, countdown, tests. -/
def waitTick (s : State) : Result :=
  andThen (edgeHandler s) fun s1 => waitTests (countdownTick s1)

/-- Step 4, at `t_a` (R123). -/
def enterWait (s : State) : State :=
  { s with drv := .released, gieInhibit := false, armed := true, phase := .wait }

end Sys2Proof.Machine
end

