-- ==== Sys2Proof/Machine/LineDriver.lean ====
section
/-!
DEFINITION. The Line Driver: the meanings of `sendZero`, `sendOne`, `sendStop` and `sendCommand`, one tick of each.
A symbol lasts several ticks; `txTick` says how far it has come, and the same meaning runs again in every tick of it.
Spec: 40_line_driver.md (R80 to R88).
-/

namespace Sys2Proof.Machine

/-- Put out tick `j` of the frame, which lies in the symbol `sym` (R84): the only writer of `drv = Low` (R11). -/
def emitSymbol (sym : Symbol) (j : Nat) (s : State) : State :=
  { s with drv := symbolDrive s.cfg sym (frameOffset s.cfg s.cmdLen j), txTick := j }

/-- The next tick of a symbol. The Line Driver does not read the line (R88). -/
def sendSymbol (sym : Symbol) (s : State) : Result :=
  if s.phase = .send then .next (emitSymbol sym (s.txTick + 1) s) else .refused .notSending

/-- `sendZero` (R80): Low for `3*S` ticks, released for `S`. -/
def execSendZero (s : State) : Result := sendSymbol .zero s

/-- `sendOne` (R81): Low for `S` ticks, released for `3*S`. -/
def execSendOne (s : State) : Result := sendSymbol .one s

/-- `sendStop` (R82): Low for `S` ticks, released for `STOP_HIGH_TICKS`. -/
def execSendStop (s : State) : Result := sendSymbol .stop s

/-- The first tick of a frame: "the waveform's first tick is the accept tick" (R84, D3), global interrupts
suppressed from it on (R87, R122). -/
def startFrame (bytes : List Byte) (s : State) : State :=
  emitSymbol (frameSymbolAt s.cfg bytes 0) 0
    { s with phase := .send, gieInhibit := true, cmdLen := bytes.length }

/-- `sendCommand(bytes)` (R83): from `IDLE` it starts the frame; in `SEND` it goes on with the symbol the next tick
lies in. -/
def execSendCommand (bytes : List Byte) (s : State) : Result :=
  match s.phase with
  | .idle =>
    if bytes.isEmpty then .refused .emptyCommand
    else if configSendable s.cfg then .next (startFrame bytes s)
    else .refused .configurationOutOfRange
  | .send =>
    if s.txTick + 1 < frameTicks s.cfg bytes.length then
      match frameSymbolAt s.cfg bytes (s.txTick + 1) with
      | .zero => execSendZero s
      | .one => execSendOne s
      | .stop => execSendStop s
    else .refused .notSending
  | .uninit | .wait | .firstEdge | .pollRx => .refused .notSending

end Sys2Proof.Machine
end

