-- ==== Sys2Proof/Machine/Polling.lean ====
section
/-!
DEFINITION. The receive path of the Polling Reply Decoder: the first-edge wait and the sample step.
Spec: 41_polling_decoder.md (R100 to R109).
-/

namespace Sys2Proof.Machine

/-- At `t_a` (R101). -/
def enterFirstEdge (s : State) : State := { s with drv := .released, phase := .firstEdge }

/-- One tick of `FIRSTEDGE` (R102): a Low line ends it. -/
def firstEdgeTick (s : State) : Result :=
  match lineLevel s with
  | .low => .next { s with phase := .pollRx, cur := 0, nbits := 0, highCount := 0, pollPrev := .low }
  | .high => .next s

/-- Completion (R108): "`phase <- IDLE; gie_inhibit <- 0; done <- 1; success <- true`". -/
def finishPolling (s : State) : State :=
  { returnCall true none s with phase := .idle, gieInhibit := false }

/-- Store the finished byte after a multiple of 8 bits: `MemWrite(reply, nbits/8 - 1, cur)` (R103, R107). -/
def storeFinishedByte (s : State) : Result :=
  if s.nbits % bitsPerByte = 0 then
    match memWrite s.mem.reply (s.nbits / bitsPerByte - 1) s.cur with
    | none => .fault .bufferIndexOutOfRange
    | some reply => .next { s with mem := { s.mem with reply := reply } }
  else .next s

/-- A bit boundary (R103, R104): the bit of the closed cell, the store, completion. -/
def bitBoundary (s : State) : Result :=
  let s1 := { s with
    cur := shiftIn s.cur (thresholdBit s.cfg s.highCount)
    nbits := s.nbits + 1
    highCount := 0
    pollPrev := .low }
  andThen (storeFinishedByte s1) fun s2 =>
    if s2.nbits = bitsPerByte * s2.replyLen then .next (finishPolling s2) else .next s2

/-- One tick of `POLLRX`: the sample step (R103). -/
def pollTick (s : State) : Result :=
  match lineLevel s with
  | .high => .next { s with highCount := s.highCount + 1, pollPrev := .high }
  | .low =>
    match s.pollPrev with
    | .high => bitBoundary s
    | .low => .next s

end Sys2Proof.Machine
end

