-- ==== Sys2Proof/Machine/Transaction.lean ====
section
/-!
DEFINITION. A transaction: the accept tick and every later tick of it, for both decoder variants.
Spec: 43_commands.md (R151 to R153), 10_state.md (R14, R15).
-/

namespace Sys2Proof.Machine

/-- The command bytes of the frame in flight: the first `L` of the command buffer (R16, R41). -/
def commandBytes (s : State) : Option (List Byte) := firstBytes s.mem.cmd s.cmdLen

/-- The preconditions on the operands of an accepted code (R151) and on the configuration (R140). -/
def operandProblem (s : State) : Option Refusal :=
  if !replySizeLegal s.replySize then some .replySizeOutOfRange
  else if s.mem.reply.size < s.replySize then some .replyBufferTooShort
  else if !bitSourceGiven s.cfg then some .elapsedTimeVariant
  else none

/-- What the Interrupt variant does between the zero-fill and the frame: acquire, step 1, step 2 (R136, R120, R121);
the Polling variant does nothing there (R100, R101). -/
def prepareDecoder (s : State) : State :=
  match s.cfg.decoder with
  | .interrupt => startTimer (resetTransactionState (acquireSources s))
  | .polling => s

/-- The accept tick of a command that has passed validation (R153). -/
def acceptCommand (s : State) : Result :=
  match operandProblem s with
  | some problem => .refused problem
  | none =>
    match zeroFill s.mem.reply s.replySize, firstBytes s.mem.cmd s.mem.cmd.size with
    | some reply, some bytes =>
      execSendCommand bytes (prepareDecoder (latchOperands { s with mem := { s.mem with reply := reply } }))
    | _, _ => .fault .bufferIndexOutOfRange

/-- `t_a`, "the tick in which it would reach `N`" (R15): the receive phase begins in this very tick (R101, R123). -/
def receiveEntry (s : State) : Result :=
  match s.cfg.decoder with
  | .interrupt => waitTick (enterWait s)
  | .polling => firstEdgeTick (enterFirstEdge s)

/-- A tick of `SEND`: the frame goes on, the countdown with it (R122, R128), until it is over. -/
def sendTick (s : State) : Result :=
  if s.txTick + 1 < frameTicks s.cfg s.cmdLen then
    match commandBytes s with
    | none => .fault .bufferIndexOutOfRange
    | some bytes => andThen (execSendCommand bytes s) fun s1 => .next (countdownTick s1)
  else receiveEntry s

/-- The tick of the phase a transaction in flight is in (R14, R165). -/
def transactionTick (s : State) : Result :=
  match s.phase with
  | .uninit => .refused .runBeforeBegin
  | .idle => acceptCommand s
  | .send => sendTick s
  | .wait => waitTick s
  | .firstEdge => firstEdgeTick s
  | .pollRx => pollTick s

end Sys2Proof.Machine
end

