-- ==== Sys2Proof/Machine/Commands.lean ====
section
/-!
DEFINITION. The command codes: the meanings of IDENTIFY, POLL, RESET (accepted) and READ, WRITE and every other code
(rejected), one tick of each. A transaction lasts many ticks; `phase` says how far it has come (R14), and the same
meaning runs again in every tick of it.
Spec: 43_commands.md (R152 to R159), 60_exceptions.md (R181).
-/

namespace Sys2Proof.Machine

/-- The meaning of a code presupposes that this code stands on the port `cmd[0]` (R60). -/
def withCode (code : Byte) (s : State) (meaning : Result) : Result :=
  match commandCode s.mem with
  | none => .refused .emptyCommand
  | some c => if c = code then meaning else .refused .commandByteMismatch

/-- An accepted code: one tick of the transaction of R153. -/
def acceptedCode (code : Byte) (s : State) : Result := withCode code s (transactionTick s)

/-- Rejection (R152, R181): "State changed: `success <- false`, `done` pulsed; nothing else". -/
def rejectedCode (code : Byte) (s : State) : Result :=
  match s.phase with
  | .uninit => .refused .runBeforeBegin
  | .idle => withCode code s (.next (raiseError .unsupportedCommand s))
  | .send | .wait | .firstEdge | .pollRx => .refused .requestWhileBusy

/-- IDENTIFY (R154). -/
def execIdentify (s : State) : Result := acceptedCode 0x00 s

/-- POLL (R155). -/
def execPoll (s : State) : Result := acceptedCode 0x01 s

/-- RESET (R156): "The command resets the Controller, not the engine". -/
def execReset (s : State) : Result := acceptedCode 0xFF s

/-- READ (R157). -/
def execRead (s : State) : Result := rejectedCode 0x02 s

/-- WRITE (R158). -/
def execWrite (s : State) : Result := rejectedCode 0x03 s

/-- Any other code (R159). -/
def execUnsupported (code : Byte) (s : State) : Result := rejectedCode code s

end Sys2Proof.Machine
end

