-- ==== Sys2Proof/Machine/HostOps.lean ====
section
/-!
DEFINITION. The host operations: the meanings of `begin`, `runCommand` and `decodePoll`, and the host's accesses to
its own buffers. Spec: 43_commands.md (R150 to R153, R160), 20_memory.md (R41, R42, R44).
-/

namespace Sys2Proof.Machine

/-- `begin()` (R150, R29): "it cannot fail", and a call in flight is refused. -/
def execBegin (s : State) : Result :=
  match s.phase with
  | .uninit | .idle => .next (initialise s)
  | .send | .wait | .firstEdge | .pollRx => .refused .requestWhileBusy

/-- `runCommand` (R151 to R153): validation by byte 0 alone, "the command byte on port cmd selects one of the
command-byte rows"; while its transaction is in flight, the next tick of that. -/
def execRunCommand (s : State) : Result :=
  match commandCode s.mem with
  | none => .refused .emptyCommand
  | some code =>
    match decodeCommand code with
    | .identify => execIdentify s
    | .poll => execPoll s
    | .reset => execReset s
    | .read => execRead s
    | .write => execWrite s
    | .unsupported c => execUnsupported c s
    | .begin | .runCommand | .sendZero | .sendOne | .sendStop | .sendCommand _ | .decodePoll _ _ _ _ =>
      .refused .commandByteMismatch

/-- `decodePoll` (R160): "A pure function, no state" of the engine's; its result is the host's. -/
def execDecodePoll (r0 r1 r2 r3 : Byte) (s : State) : Result :=
  .next { s with report := decodePollReply r0 r1 r2 r3 }

/-- The host writes a byte of one of its own buffers between two transactions (R41, R42, R44). -/
def hostWrite (a : HostAccess) (s : State) : Result :=
  match a with
  | .decodePoll => .next s
  | .writeReply i v =>
    match memWrite s.mem.reply i v with
    | none => .refused .hostIndexOutOfRange
    | some b => .next { s with mem := { s.mem with reply := b } }
  | .writeCmd i v =>
    match memWrite s.mem.cmd i v with
    | none => .refused .hostIndexOutOfRange
    | some b => .next { s with mem := { s.mem with cmd := b } }

end Sys2Proof.Machine
end

