-- ==== Sys2Proof/Machine/Dispatch.lean ====
section
/-!
DEFINITION. One arm per instruction, each one direct call of its meaning.
-/

namespace Sys2Proof.Machine

/-- One tick of an instruction. -/
def exec (i : Instr) (s : State) : Host.Outcome State Fault Refusal :=
  match i with
  | .identify => Sys2Proof.Machine.execIdentify s
  | .poll => Sys2Proof.Machine.execPoll s
  | .read => Sys2Proof.Machine.execRead s
  | .write => Sys2Proof.Machine.execWrite s
  | .reset => Sys2Proof.Machine.execReset s
  | .unsupported code => Sys2Proof.Machine.execUnsupported code s
  | .begin => Sys2Proof.Machine.execBegin s
  | .runCommand => Sys2Proof.Machine.execRunCommand s
  | .sendZero => Sys2Proof.Machine.execSendZero s
  | .sendOne => Sys2Proof.Machine.execSendOne s
  | .sendStop => Sys2Proof.Machine.execSendStop s
  | .sendCommand bytes => Sys2Proof.Machine.execSendCommand bytes s
  | .decodePoll r0 r1 r2 r3 => Sys2Proof.Machine.execDecodePoll r0 r1 r2 r3 s

end Sys2Proof.Machine
end

