-- ==== Sys2Proof/Machine/Fetch.lean ====
section
/-!
DEFINITION. Which instruction the coming tick runs. The engine has no stored program (R14): the request ports select
a host operation, a transaction in flight goes on by itself, and the host may read or write its own memory.
Spec: 10_state.md (R10, R14), 43_commands.md (R150, R151), 20_memory.md (R42), 70_reset_and_hazards.md (R225).
-/

namespace Sys2Proof.Machine

/-- What the coming tick does. -/
inductive Fetched where
  /-- It runs an instruction. -/
  | run (i : Instr)
  /-- The host writes its own memory. -/
  | write (a : HostAccess)
  /-- Nothing is asked for and nothing is in flight. -/
  | quiet
  /-- What is asked for has no meaning. -/
  | stop (r : Refusal)
deriving DecidableEq, Repr

/-- The four bytes of a POLL reply as a word of the table (R64, R160). -/
def replyWord (b : Buffer) : Option Code :=
  match memRead b 0, memRead b 1, memRead b 2, memRead b 3 with
  | some r0, some r1, some r2, some r3 => some (.reply r0 r1 r2 r3)
  | _, _, _, _ => none

/-- The instruction of a word, or a refusal where there is none. -/
def fetchWord (w : Option Code) : Fetched :=
  match w with
  | none => .stop .hostIndexOutOfRange
  | some code =>
    match decode code with
    | .ok i => .run i
    | .error _ => .stop .hostIndexOutOfRange

/-- A tick without a call: a transaction in flight goes on (R165); else the host may use its own memory, which it
"must not read or write ... between `run_req` and `done`" (R42). -/
def fetchQuiet (s : State) : Fetched :=
  match busy s, s.access with
  | true, none => .run .runCommand
  | true, some _ => .stop .accessDuringTransaction
  | false, none => .quiet
  | false, some .decodePoll => fetchWord (replyWord s.mem.reply)
  | false, some a => .write a

/-- The word on the request ports (R10). A request in flight is refused (R150, R225). -/
def fetch (s : State) : Fetched :=
  match decode (.ports s.beginReq s.runReq) with
  | .ok i =>
    if s.access.isSome then .stop .callWithAccess
    else if busy s then .stop .requestWhileBusy
    else .run i
  | .error .noRequest => fetchQuiet s
  | .error _ => .stop .bothRequests

/-! ### A word placed where the next step runs it -/

/-- No reset in the coming tick. -/
def withoutRst : List EnvTick → List EnvTick
  | [] => []
  | e :: rest => { e with rst := false } :: rest

/-- No call and no access on the ports, no reset, no script line in front. -/
def quietPorts (s : State) : State :=
  { s with beginReq := false, runReq := false, access := none, env := withoutRst s.env }

/-- A reply buffer that holds at least `n` bytes. -/
def roomyReply (b : Buffer) (n : Nat) : Buffer := if b.size < n then zeroBuffer n else b

/-- The host, free to call, calls `runCommand` with these bytes. -/
def placeRun (bytes : List Byte) (s : State) : State :=
  let n := replyLenOf (bytes.headD 0)
  { quietPorts s with
    phase := .idle
    runReq := true
    replySize := n
    mem := { s.mem with cmd := bufferOf bytes, reply := roomyReply s.mem.reply n } }

/-- A frame of one byte in flight, whose next tick is tick `j + 1`. -/
def placeSymbol (byte : Byte) (j : Nat) (s : State) : State :=
  { quietPorts s with
    phase := .send
    txTick := j
    cmdLen := 1
    mem := { s.mem with cmd := bufferOf [byte] } }

/-- The state in which the very next step runs the instruction (notes/assumptions/6.md). A symbol starts in the tick
behind a finished cell: the second cell of `0x00` is a ZERO, that of `0xFF` a ONE, and the STOP follows the eighth. -/
def placeInstr (i : Instr) (s : State) : State :=
  match i with
  | .identify => placeRun [0x00] s
  | .poll => placeRun [0x01] s
  | .read => placeRun [0x02] s
  | .write => placeRun [0x03] s
  | .reset => placeRun [0xFF] s
  | .unsupported code => placeRun [code] s
  | .begin => { quietPorts s with phase := .idle, beginReq := true }
  | .runCommand => placeRun [0x00] s
  | .sendZero => placeSymbol 0x00 (4 * s.cfg.ticksPerUnit - 1) s
  | .sendOne => placeSymbol 0xFF (4 * s.cfg.ticksPerUnit - 1) s
  | .sendStop => placeSymbol 0x00 (32 * s.cfg.ticksPerUnit - 1) s
  | .sendCommand bytes => placeRun bytes s
  | .decodePoll r0 r1 r2 r3 =>
    { quietPorts s with
      phase := .idle
      access := some .decodePoll
      mem := { s.mem with reply := bufferOf [r0, r1, r2, r3] } }

end Sys2Proof.Machine
end

