-- ==== Sys2Proof/Machine/Step.lean ====
section
/-!
DEFINITION. One tick of the engine (R7). No tick is skipped (R234).
-/

namespace Sys2Proof.Machine

/-- The work of a tick between its beginning and its end. -/
def tickWork (s : State) : Result :=
  match fetch s with
  | .run i => exec i s
  | .write a => hostWrite a s
  | .quiet => .next s
  | .stop r => .refused r

/-- One tick: reset if the port says so (R10), else beginning, work, end. -/
def step (s : State) : Host.Outcome State Fault Refusal :=
  if rstLevel s then .next (rstTick s)
  else andThen (tickWork (beginTick s)) fun t => .next (endTick t)

/-- `s` with an instruction where the next step runs it; a word that is no instruction changes nothing. -/
def State.withFetchWord (s : State) (nbits w : Nat) : State :=
  match decodeTableWord nbits w with
  | some i => placeInstr i s
  | none => s

end Sys2Proof.Machine
end

