-- ==== Sys2Proof/Safety.lean ====
section
/-!
DEFINITION. What statements about the engine are made of: the invariant of a tick, the idle invariant (R30), a call
the host makes within its duties, runs of ticks, the Controller's part, and what the host can see.
Spec: 10_state.md (R14 to R30), 70_reset_and_hazards.md (R212, R220 to R234), 95_test_vectors.md section 2.
-/

namespace Sys2Proof.Machine

/-! ### The invariant -/

/-- The idle invariant of R30: pin released, edge interrupt disarmed, nothing pending, nothing suppressed, no
countdown. -/
abbrev Passive (s : State) : Prop :=
  s.drv = .released ∧ s.armed = false ∧ s.samplePending = false ∧ s.gieInhibit = false
    ∧ s.suppress = false ∧ s.cntRunning = false

/-- The operands a transaction in flight has latched are the ones it was accepted with (R16, R41, R42, R151). -/
abbrev OperandsHeld (s : State) : Prop :=
  s.cmdLen = s.mem.cmd.size ∧ 1 ≤ s.cmdLen ∧ supportedCode (s.mem.cmd.byteAt 0) = true
    ∧ 1 ≤ s.replyLen ∧ s.replyLen ≤ scratchCap ∧ s.replyLen ≤ s.mem.reply.size
    ∧ configSendable s.cfg = true ∧ s.t0 < s.now

/-- The countdown of an Interrupt transaction has counted every tick since `t0` and has not expired; under
`Timestamp` it does not run (R121, R128). -/
abbrev TimerHeld (s : State) : Prop :=
  (s.cfg.timeoutStrategy = .timestamp → s.cntRunning = false)
    ∧ (s.cfg.timeoutStrategy = .countdown →
        s.cntRunning = true ∧ s.timeoutFlag = false ∧ s.cnt = s.cfg.timeoutTicks - (s.now - 1 - s.t0))

/-- The command bytes of the frame in flight. -/
def sentBytes (s : State) : List Byte := (List.range s.cmdLen).map s.mem.cmd.byteAt

/-- `SEND` (R15, R87, R120, R122, R136): the pin carries the waveform, no handler can run. -/
abbrev SendInv (s : State) : Prop :=
  OperandsHeld s ∧ s.gieInhibit = true ∧ s.armed = false ∧ s.samplePending = false
    ∧ s.txTick < frameTicks s.cfg s.cmdLen ∧ s.now = s.t0 + s.txTick + 1
    ∧ s.drv = waveAt s.cfg (sentBytes s) s.txTick
    ∧ (s.cfg.decoder = .interrupt →
        s.cfg.bitSource = .sampledLevel ∧ s.suppress = true ∧ s.compEnable = Sources.none
          ∧ s.bitCounter = bitsPerByte ∧ s.byteCounter = 0 ∧ TimerHeld s)
    ∧ (s.cfg.decoder = .polling → s.suppress = false ∧ s.cntRunning = false)

/-- `WAIT` (R17, R18, R123, R127): armed, the reply not complete, the deadline not reached. -/
abbrev WaitInv (s : State) : Prop :=
  OperandsHeld s ∧ s.cfg.decoder = .interrupt ∧ s.cfg.bitSource = .sampledLevel ∧ s.drv = .released
    ∧ s.gieInhibit = false ∧ s.armed = true ∧ s.suppress = true ∧ s.compEnable = Sources.none
    ∧ 1 ≤ s.bitCounter ∧ s.bitCounter ≤ bitsPerByte ∧ s.byteCounter < s.replyLen ∧ TimerHeld s

/-- `FIRSTEDGE` and `POLLRX` (R100): interrupts off, nothing of the Interrupt variant in use. -/
abbrev PollingInv (s : State) : Prop :=
  OperandsHeld s ∧ s.cfg.decoder = .polling ∧ s.drv = .released ∧ s.gieInhibit = true ∧ s.armed = false
    ∧ s.samplePending = false ∧ s.suppress = false ∧ s.cntRunning = false

/-- `POLLRX` (R26, R104): the reply not complete; a High sample before means at least one counted. -/
abbrev SamplingInv (s : State) : Prop :=
  s.nbits < bitsPerByte * s.replyLen ∧ (s.pollPrev = .high → 1 ≤ s.highCount)

/-- What holds between any two ticks. -/
abbrev Inv (s : State) : Prop :=
  s.mem.wf = true
    ∧ (s.phase = .uninit → Passive s)
    ∧ (s.phase = .idle → Passive s)
    ∧ (s.phase = .send → SendInv s)
    ∧ (s.phase = .wait → WaitInv s)
    ∧ (s.phase = .firstEdge → PollingInv s)
    ∧ (s.phase = .pollRx → PollingInv s ∧ SamplingInv s)

/-! ### A call within the host's duties (R151, R212) -/

/-- The operands of an accepted code meet R151, and the configuration has a rule for everything it asks for. -/
abbrev OperandsLegal (s : State) : Prop :=
  1 ≤ s.mem.cmd.size ∧ supportedCode (s.mem.cmd.byteAt 0) = true
    ∧ 1 ≤ s.replySize ∧ s.replySize ≤ scratchCap ∧ s.replySize ≤ s.mem.reply.size
    ∧ configSendable s.cfg = true ∧ bitSourceGiven s.cfg = true

/-- The engine is idle and `runCommand` with legal operands stands on the ports of the coming tick, the accept tick. -/
abbrev LegalCall (s : State) : Prop :=
  Inv s ∧ s.phase = .idle ∧ s.beginReq = false ∧ s.runReq = true ∧ s.access = none ∧ OperandsLegal s

/-- `N` of the call on the ports (R15). -/
def callFrameTicks (s : State) : Nat := frameTicks s.cfg s.mem.cmd.size

/-- The command bytes of the call on the ports. -/
def callBytes (s : State) : List Byte := (List.range s.mem.cmd.size).map s.mem.cmd.byteAt

/-! ### The accept tick -/

/-- What the accept tick leaves, field by field (R153): `s` before the meaning runs, `t` after it. -/
structure Accepted (s t : State) : Prop where
  /-- The frame is in its first tick (R84, R101, R122). -/
  sending : t.phase = .send ∧ t.txTick = 0 ∧ t.drv = .low ∧ t.gieInhibit = true
  /-- R16. -/
  latched : t.cmdLen = s.mem.cmd.size ∧ t.replyLen = s.replySize ∧ t.t0 = s.now
  /-- R56: exactly `n` bytes. -/
  zeroFilled : ∀ i, t.mem.reply.byteAt i = if i < s.replySize then 0 else s.mem.reply.byteAt i
  /-- The size of the host's buffer and the command are as they were. -/
  hostMemory : t.mem.reply.size = s.mem.reply.size ∧ t.mem.cmd = s.mem.cmd
  /-- Interrupt variant: acquire (R136) and step 1 (R120). -/
  interrupt : s.cfg.decoder = .interrupt →
    t.savedEnable = s.compEnable ∧ t.savedPending = s.compPending ∧ t.compEnable = Sources.none
      ∧ t.suppress = true ∧ t.bitCounter = 8 ∧ t.byteCounter = 0 ∧ t.samplePending = false
      ∧ t.mem.scratch.size = 8 ∧ ∀ i, t.mem.scratch.byteAt i = 0
  /-- Interrupt variant with the countdown: step 2 (R121). -/
  countdown : s.cfg.decoder = .interrupt → s.cfg.timeoutStrategy = .countdown →
    t.cnt = s.cfg.timeoutTicks ∧ t.cntRunning = true ∧ t.timeoutFlag = false
  /-- Without it the countdown is left alone (R23, R100). -/
  noCountdown : s.cfg.decoder = .polling ∨ s.cfg.timeoutStrategy = .timestamp →
    t.cnt = s.cnt ∧ t.cntRunning = s.cntRunning ∧ t.timeoutFlag = s.timeoutFlag
  /-- Polling variant: nothing of the Interrupt variant is used (R100). -/
  polling : s.cfg.decoder = .polling →
    t.savedEnable = s.savedEnable ∧ t.savedPending = s.savedPending ∧ t.compEnable = s.compEnable
      ∧ t.suppress = s.suppress ∧ t.bitCounter = s.bitCounter ∧ t.byteCounter = s.byteCounter
      ∧ t.samplePending = s.samplePending ∧ t.mem.scratch = s.mem.scratch
  /-- Everything else is as it was. -/
  frame : t.cfg = s.cfg ∧ t.now = s.now ∧ t.prevLine = s.prevLine ∧ t.cur = s.cur ∧ t.nbits = s.nbits
    ∧ t.highCount = s.highCount ∧ t.pollPrev = s.pollPrev ∧ t.success = s.success ∧ t.done = s.done
    ∧ t.cause = s.cause ∧ t.armed = s.armed ∧ t.sampleAt = s.sampleAt ∧ t.compPending = s.compPending
    ∧ t.beginReq = s.beginReq ∧ t.runReq = s.runReq ∧ t.replySize = s.replySize ∧ t.access = s.access
    ∧ t.script = s.script ∧ t.env = s.env ∧ t.draws = s.draws ∧ t.report = s.report

/-! ### Runs and the surroundings -/

/-- The Line Driver's operation of a symbol (R80 to R82). -/
def symbolInstr : Symbol → Instr
  | .zero => .sendZero
  | .one => .sendOne
  | .stop => .sendStop

/-- Nothing stands on the ports: no call, no access. -/
abbrev PortsQuiet (s : State) : Prop := s.beginReq = false ∧ s.runReq = false ∧ s.access = none

/-- Does the edge handler's run in the coming tick complete the reply (R125, R131)? -/
abbrev CompletesNow (s : State) : Prop :=
  s.samplePending = true ∧ s.now = s.sampleAt ∧ s.bitCounter = 1 ∧ s.byteCounter + 1 = s.replyLen

/-- `k` ticks. -/
def runTicks (k : Nat) (s : State) : Result := Host.Core.run Sys2Proof.core k s

/-- `k` ticks of one instruction, without the tick around it. -/
def execTimes (i : Instr) : Nat → State → Result
  | 0, s => .next s
  | k + 1, s => andThen (exec i s) (execTimes i k)

/-- No reset in the next `k` ticks. -/
abbrev NoReset (k : Nat) (s : State) : Prop := ∀ e ∈ s.env.take k, e.rst = false

/-- The competing sources' own side changes nothing in the next `k` ticks. -/
abbrev SourcesQuiet (k : Nat) (s : State) : Prop := ∀ e ∈ s.env.take k, e.sources = none

/-- The Controller's drives in the coming ticks are these (95_test_vectors.md section 2). -/
abbrev ControllerSends (drives : List Drive) (s : State) : Prop := drives <+: s.env.map EnvTick.drvC

/-- A silent Controller for `k` ticks. -/
def silence (k : Nat) : List Drive := List.replicate k .released

/-- What the host can see of the engine: the ports it reads, its own buffer, and whether a call is running. -/
structure HostView where
  phase : Phase
  done : Bool
  success : Bool
  drv : Drive
  gieInhibit : Bool
  suppress : Bool
  compEnable : Sources
  compPending : Sources
  reply : Buffer
  report : PollReport
deriving DecidableEq, Repr

/-- The host's view of a state. -/
def hostView (s : State) : HostView where
  phase := s.phase
  done := s.done
  success := s.success
  drv := s.drv
  gieInhibit := s.gieInhibit
  suppress := s.suppress
  compEnable := s.compEnable
  compPending := s.compPending
  reply := s.mem.reply
  report := s.report

/-- The host's view of what a run answers. -/
def resultView : Result → Host.Outcome HostView Fault Refusal
  | .next s => .next (hostView s)
  | .fault e => .fault e
  | .refused e => .refused e

/-- The same engine with the other timeout strategy built in. -/
def withStrategy (strategy : TimeoutStrategy) (s : State) : State :=
  { s with cfg := { s.cfg with timeoutStrategy := strategy } }

end Sys2Proof.Machine
end

