-- ==== Sys2Proof/Certificates/Slice0/Obligations.lean ====
section
/-!
DEFINITION. The statements about the engine, for the provers. Each docstring names the rule of the spec it is about;
where one rests on a choice of the model's own, it names the log entry.
-/

open Sys2Proof Sys2Proof.Machine

/-! ### Encodings -/

/-- Decoding the word of a well-formed instruction gives the instruction back, whatever its operands: every code, every
command of every length, every POLL reply (30_encoding.md sections 1 to 5). -/
def Obligations.DecodeOfEncode : Prop :=
  ∀ i : Instr, i.wf = true → decode (encode i) = .ok i

/-- The other direction: the word that decodes to an instruction is that instruction's own word, so no two words mean
the same and the decoder yields well-formed instructions only (30_encoding.md sections 1 to 5). -/
def Obligations.EncodeOfDecode : Prop :=
  ∀ (w : Code) (i : Instr), decode w = .ok i → i.wf = true ∧ encode i = w

/-- The same for words written as numbers, as spec/opcode_table.json writes them. That the width tells the layers of
the table apart is the model's convention (notes/assumptions/5.md). -/
def Obligations.TableNumberRoundTrip : Prop :=
  ∀ i : Instr, i.wf = true → decodeTableWord (encodeTableWord i).1 (encodeTableWord i).2 = some i

/-- The opcode map, with the expected reply lengths (30_encoding.md section 1, R67): the five named codes, and no other
code is anything but rejected (section 2). -/
def Obligations.OpcodeMapByCode : Prop :=
  decode (.command 0x00) = .ok .identify ∧ decode (.command 0x01) = .ok .poll
    ∧ decode (.command 0x02) = .ok .read ∧ decode (.command 0x03) = .ok .write
    ∧ decode (.command 0xFF) = .ok .reset
    ∧ (∀ code : Byte, 0x04 ≤ code.toNat → code.toNat ≤ 0xFE → decode (.command code) = .ok (.unsupported code))
    ∧ replyLenOf 0x00 = 3 ∧ replyLenOf 0x01 = 4 ∧ replyLenOf 0xFF = 3

/-- Words written out from the tables: ZERO `0001`, ONE `0111`, STOP `011` (30_encoding.md section 3), the two request
ports (10_state.md section 1), the 35 units of the frame of `0x01` (V-LD2), the four bytes of a POLL reply
(30_encoding.md section 4), a rejected code. That the width of the number selects the layer, and that the first byte of
a POLL reply is in bits 7..0 of its number, are the model's choice (DESIGN CHOICE, notes/assumptions/5.md). -/
def Obligations.WordsWrittenOut : Prop :=
  decodeTableWord 4 0b0001 = some .sendZero ∧ decodeTableWord 4 0b0111 = some .sendOne
    ∧ decodeTableWord 3 0b011 = some .sendStop
    ∧ decodeTableWord 2 0b10 = some .begin ∧ decodeTableWord 2 0b01 = some .runCommand
    ∧ decodeTableWord 35 0b00010001000100010001000100010111011 = some (.sendCommand [0x01])
    ∧ decodeTableWord 32 0xF60A2301 = some (.decodePoll 0x01 0x23 0x0A 0xF6)
    ∧ decodeTableWord 8 0x40 = some (.unsupported 0x40)

/-- R89: the reference bit-timing decoder recovers the command from its waveform, at every time base and every legal
length of STOP. -/
def Obligations.ReferenceDecoderRecoversCommand : Prop :=
  ∀ (c : Config) (bytes : List Byte), configSendable c = true → refDecode c (waveform c bytes) = some bytes

/-- The formula of R84 (40_line_driver.md section 2) is the loop of R83: same length, same drive in every tick. -/
def Obligations.WaveformByFormula : Prop :=
  ∀ (c : Config) (bytes : List Byte), configSendable c = true →
    (waveform c bytes).length = frameTicks c bytes.length
      ∧ ∀ j, j < frameTicks c bytes.length → (waveform c bytes)[j]? = some (waveAt c bytes j)

/-- R85: the last tick of every frame is released. -/
def Obligations.FrameEndsReleased : Prop :=
  ∀ (c : Config) (bytes : List Byte), configSendable c = true →
    (waveform c bytes)[frameTicks c bytes.length - 1]? = some .released

/-! ### The Line Driver -/

/-- R80: `sendZero`, run in the ticks of a cell of a frame in flight, drives Low for `3*S` ticks and releases for `S`;
in each tick it answers a next state in which the drive and `txTick` alone have changed. -/
def Obligations.SendZeroDrivesItsCell : Prop :=
  ∀ (s : State) (k : Nat), s.phase = .send → 1 ≤ s.cfg.ticksPerUnit →
    (s.txTick + 1) % (4 * s.cfg.ticksPerUnit) = 0 →
    s.txTick + 1 < 32 * s.cmdLen * s.cfg.ticksPerUnit → k < 4 * s.cfg.ticksPerUnit →
    execTimes .sendZero (k + 1) s = .next { s with
      drv := if k < 3 * s.cfg.ticksPerUnit then .low else .released
      txTick := s.txTick + 1 + k }

/-- R81: `sendOne` drives Low for `S` ticks and releases for `3*S`. -/
def Obligations.SendOneDrivesItsCell : Prop :=
  ∀ (s : State) (k : Nat), s.phase = .send → 1 ≤ s.cfg.ticksPerUnit →
    (s.txTick + 1) % (4 * s.cfg.ticksPerUnit) = 0 →
    s.txTick + 1 < 32 * s.cmdLen * s.cfg.ticksPerUnit → k < 4 * s.cfg.ticksPerUnit →
    execTimes .sendOne (k + 1) s = .next { s with
      drv := if k < s.cfg.ticksPerUnit then .low else .released
      txTick := s.txTick + 1 + k }

/-- R82: `sendStop` drives Low for `S` ticks and releases for `STOP_HIGH_TICKS`, behind the last data cell. -/
def Obligations.SendStopDrivesItsPulse : Prop :=
  ∀ (s : State) (k : Nat), s.phase = .send → s.txTick + 1 = 32 * s.cmdLen * s.cfg.ticksPerUnit →
    k < s.cfg.ticksPerUnit + s.cfg.stopHighTicks →
    execTimes .sendStop (k + 1) s = .next { s with
      drv := if k < s.cfg.ticksPerUnit then .low else .released
      txTick := s.txTick + 1 + k }

/-- R83: `sendCommand(bytes)`, run from `IDLE` on, puts out the symbols of the frame one after the other, a drive a
tick; beside the drive, `txTick` and the operand's length, only the phase and the interrupt suppression change. -/
def Obligations.SendCommandDrivesItsFrame : Prop :=
  ∀ (s : State) (bytes : List Byte) (j : Nat) (d : Drive), s.phase = .idle → bytes ≠ [] →
    configSendable s.cfg = true → (waveform s.cfg bytes)[j]? = some d →
    execTimes (.sendCommand bytes) (j + 1) s = .next { s with
      phase := .send, gieInhibit := true, cmdLen := bytes.length, txTick := j, drv := d }

/-- A tick of `SEND` does not look at the line (R88): whatever the Controller drives in it, the engine's next state is
the same but for the recorded level. -/
def Obligations.SendTickIgnoresTheLine : Prop :=
  ∀ (s : State) (d1 d2 : Drive) (src : Option (Sources × Sources)) (rest : List EnvTick) (t1 : State),
    s.phase = .send → s.txTick + 1 < frameTicks s.cfg s.cmdLen →
    step { s with env := ⟨d1, false, src⟩ :: rest } = .next t1 →
    ∃ t2, step { s with env := ⟨d2, false, src⟩ :: rest } = .next t2
      ∧ t2 = { t1 with prevLine := t2.prevLine }

/-! ### Host operations and command codes -/

/-- `begin()` (43_commands.md R150) releases the pin, disarms and goes to `IDLE`, and leaves the values R29 gives after
`begin()` (10_state.md section 9): nothing pending, nothing suppressed, no countdown, `timeoutFlag` 0. Nothing else
changes; a second one changes nothing; during a transaction it is refused. That `begin()` itself writes the five
registers R29 lists and R150 does not is the model's reading (DEDUCED, notes/assumptions/17.md). -/
def Obligations.BeginInitialises : Prop :=
  ∀ s : State,
    (s.phase = .uninit ∨ s.phase = .idle →
      exec .begin s = .next { s with
          drv := .released, armed := false, phase := .idle
          samplePending := false, gieInhibit := false, suppress := false
          cntRunning := false, timeoutFlag := false }
        ∧ ∀ t, exec .begin s = .next t → exec .begin t = .next t)
    ∧ (busy s = true → exec .begin s = .refused .requestWhileBusy)

/-- R157, R158, R159: READ, WRITE and every other code outside the supported set fail in the accept tick: `success` is
false, `done` is raised, and nothing else changes (but for the model's own tag `cause`, of which this says nothing). -/
def Obligations.RejectedCodesTouchNothing : Prop :=
  ∀ (s : State) (i : Instr) (code : Byte),
    (i = .read ∧ code = 0x02) ∨ (i = .write ∧ code = 0x03)
      ∨ (i = .unsupported code ∧ 0x04 ≤ code.toNat ∧ code.toNat ≤ 0xFE) →
    s.phase = .idle → memRead s.mem.cmd 0 = some code →
    ∃ t, exec i s = .next t ∧ exec .runCommand s = .next t
      ∧ t = { s with success := false, done := true, cause := t.cause }

/-- R152: validation looks at byte 0 only; an unsupported code ends the call with failure in the accept tick and
changes nothing else, a supported one goes to the transaction of its row. -/
def Obligations.ValidationByFirstByte : Prop :=
  ∀ (s : State) (code : Byte), s.phase = .idle → memRead s.mem.cmd 0 = some code →
    (code ≠ 0x00 ∧ code ≠ 0x01 ∧ code ≠ 0xFF → ∃ t, exec .runCommand s = .next t
      ∧ t = { s with success := false, done := true, cause := t.cause })
    ∧ (code = 0x00 → exec .runCommand s = exec .identify s)
    ∧ (code = 0x01 → exec .runCommand s = exec .poll s)
    ∧ (code = 0xFF → exec .runCommand s = exec .reset s)

/-- The refusals of 43_commands.md section 1 (R151): `runCommand` with a command of no byte, `runCommand` before
`begin()`, and an accepted code with a `replySize` outside `1..8` or a reply buffer shorter than it; and that of
42_interrupt_decoder.md section 2 (R140): an accepted code where the Interrupt variant is configured for the
elapsed-time sub-variant (that it comes in the accept tick is the model's reading, notes/assumptions/18.md). -/
def Obligations.CallsWithoutMeaningAreRefused : Prop :=
  ∀ s : State,
    (s.phase = .idle → s.mem.cmd.size = 0 → exec .runCommand s = .refused .emptyCommand)
    ∧ ∀ code : Byte, memRead s.mem.cmd 0 = some code →
      (s.phase = .uninit → exec .runCommand s = .refused .runBeforeBegin)
      ∧ (s.phase = .idle → supportedCode code = true → (s.replySize = 0 ∨ 8 < s.replySize) →
          exec .runCommand s = .refused .replySizeOutOfRange)
      ∧ (s.phase = .idle → supportedCode code = true → 1 ≤ s.replySize → s.replySize ≤ 8 →
          s.mem.reply.size < s.replySize → exec .runCommand s = .refused .replyBufferTooShort)
      ∧ (s.phase = .idle → supportedCode code = true → 1 ≤ s.replySize → s.replySize ≤ 8 →
          s.replySize ≤ s.mem.reply.size → s.cfg.decoder = .interrupt → s.cfg.bitSource = .elapsedTime →
          exec .runCommand s = .refused .elapsedTimeVariant)

/-- The accept tick (43_commands.md sections 1 and 2): IDENTIFY, POLL and RESET, and `runCommand` with one of their
codes, answer a next state from every idle state with legal operands; `Accepted` says what it holds, field by field:
the zero-fill, and in the Interrupt variant acquire, step 1 and step 2, and that all else is unchanged. In that frame,
`success` keeping the value of the call before is the model's choice (DESIGN CHOICE, notes/assumptions/15.md), and
`cause` is the model's own tag (notes/assumptions/10.md). -/
def Obligations.AcceptTickOfEveryAcceptedCode : Prop :=
  ∀ (s : State) (i : Instr) (code : Byte),
    (i = .identify ∧ code = 0x00) ∨ (i = .poll ∧ code = 0x01) ∨ (i = .reset ∧ code = 0xFF) →
    s.phase = .idle → s.mem.wf = true → OperandsLegal s → s.mem.cmd.byteAt 0 = code →
    ∃ t, exec i s = .next t ∧ exec .runCommand s = .next t ∧ Accepted s t

/-- R160: `decodePoll` composes the buttons big-endian from bytes 0 and 1 and reads bytes 2 and 3 as signed; the
engine's state does not change (where the host's result is kept is the model's choice, notes/assumptions/9.md). -/
def Obligations.DecodePollFields : Prop :=
  ∀ (r0 r1 r2 r3 : Byte) (s : State), ∃ t, exec (.decodePoll r0 r1 r2 r3) s = .next t
    ∧ t.report.buttons.toNat = r0.toNat * 256 + r1.toNat
    ∧ t.report.x = (if r2.toNat < 128 then (r2.toNat : Int) else r2.toNat - 256)
    ∧ t.report.y = (if r3.toNat < 128 then (r3.toNat : Int) else r3.toNat - 256)
    ∧ t = { s with report := t.report }

/-- `isGenuine` is true of exactly the replies whose first byte is 5 (43_commands.md section 3). -/
def Obligations.GenuineMarkIsFive : Prop :=
  ∀ b : Buffer, 0 < b.size → (isGenuine b = true ↔ (b.byteAt 0).toNat = 5)

/-! ### The Interrupt variant -/

/-- R124: an edge enters the handler exactly when the source is armed, no run is pending, the reply is not complete and
the line falls in this tick; then `samplePending` and `sampleAt` are written and nothing else. The premise
`gieInhibit = false` always holds while armed (R186). -/
def Obligations.FallingEdgeEntersHandler : Prop :=
  ∀ s : State, s.gieInhibit = false → s.samplePending = false →
    edgeHandler s = .next
      (if s.armed = true ∧ s.byteCounter < s.replyLen ∧ s.prevLine = .high ∧ lineLevel s = .low then
        { s with samplePending := true, sampleAt := s.now + s.cfg.sampleDelayTicks }
      else s)

/-- While a run is pending a further edge is missed, not queued (42_interrupt_decoder.md section 2, R126). -/
def Obligations.EdgeDuringRunIsMissed : Prop :=
  ∀ s : State, s.samplePending = true → s.now ≠ s.sampleAt → edgeHandler s = .next s

/-- R125: in its tick the handler's body ORs the sampled bit at the decremented position into the current scratch byte,
reloads the bit counter and advances the byte counter at zero, clears the pending bit, and touches nothing else. -/
def Obligations.HandlerBodyTakesTheBit : Prop :=
  ∀ s : State, s.mem.wf = true → s.samplePending = true → s.now = s.sampleAt →
    1 ≤ s.bitCounter → s.bitCounter ≤ 8 → s.byteCounter < 8 →
    ∃ t, edgeHandler s = .next t
      ∧ t.mem.scratch.byteAt s.byteCounter
          = s.mem.scratch.byteAt s.byteCounter
            ||| (if lineLevel s = .high then 1#8 <<< (s.bitCounter - 1) else 0#8)
      ∧ (∀ i, i ≠ s.byteCounter → t.mem.scratch.byteAt i = s.mem.scratch.byteAt i)
      ∧ (s.bitCounter = 1 → t.bitCounter = 8 ∧ t.byteCounter = s.byteCounter + 1)
      ∧ (s.bitCounter ≠ 1 → t.bitCounter = s.bitCounter - 1 ∧ t.byteCounter = s.byteCounter)
      ∧ t.samplePending = false
      ∧ t = { s with
          mem := { s.mem with scratch := t.mem.scratch }
          bitCounter := t.bitCounter
          byteCounter := t.byteCounter
          samplePending := false }

/-- One tick of the countdown (42_interrupt_decoder.md section 3; 60_exceptions.md R187, R192; 90_conflicts.md C8): it
counts down; at zero the expiry handler raises the flag and stops it; while interrupts are suppressed the handler is
held off, and runs in the first tick in which they are not. -/
def Obligations.CountdownExpiresOnceInterruptsAreOpen : Prop :=
  ∀ s : State, s.cfg.timeoutStrategy = .countdown → s.cntRunning = true →
    (2 ≤ s.cnt → countdownTick s = { s with cnt := s.cnt - 1 })
    ∧ (s.cnt ≤ 1 → s.gieInhibit = true → countdownTick s = { s with cnt := 0 })
    ∧ (s.cnt ≤ 1 → s.gieInhibit = false →
        countdownTick s = { s with cnt := 0, timeoutFlag := true, cntRunning := false })

/-- R133, R137, R134, R135: the finish disarms and drops a pending sample, restores the competing sources, copies the
finished bytes and only them, and returns `byteCounter == replySize`; nothing else changes. In that frame, the counters
and the scratch keeping their values behind the finish is the model's reading (DEDUCED, notes/assumptions/21.md; U8 lets
them be any value), and `cause`, of which this says nothing, is its own tag. -/
def Obligations.FinishDisarmsRestoresCopiesReturns : Prop :=
  ∀ s : State, s.mem.wf = true → s.byteCounter ≤ 8 → s.byteCounter ≤ s.mem.reply.size →
    ∃ t, finishInterrupt s = .next t
      ∧ t.armed = false ∧ t.samplePending = false ∧ t.cntRunning = false
      ∧ t.compEnable = s.savedEnable ∧ t.compPending = s.savedPending ∧ t.suppress = false
      ∧ (∀ i, t.mem.reply.byteAt i
          = if i < s.byteCounter then s.mem.scratch.byteAt i else s.mem.reply.byteAt i)
      ∧ t.success = decide (s.byteCounter = s.replyLen) ∧ t.done = true ∧ t.phase = .idle
      ∧ t = { s with
          armed := false, samplePending := false, cntRunning := false
          compEnable := s.savedEnable, compPending := s.savedPending, suppress := false
          mem := { s.mem with reply := t.mem.reply }
          success := t.success, done := true, cause := t.cause, phase := .idle }

/-- While the main flow's regime is the suppressed one, in and behind a tick, no handler runs in it (60_exceptions.md
section 5 and R189; 40_line_driver.md R87): no edge is taken, the countdown's flag does not rise, and the Transaction
State and the scratch stay as they are. -/
def Obligations.SuppressedRegimeRunsNoHandler : Prop :=
  ∀ s t : State, Inv s → rstLevel s = false → regimeOf s.phase = .suppressed → step s = .next t →
    regimeOf t.phase = .suppressed →
    t.armed = false ∧ t.samplePending = false ∧ t.timeoutFlag = s.timeoutFlag
      ∧ t.bitCounter = s.bitCounter ∧ t.byteCounter = s.byteCounter ∧ t.mem.scratch = s.mem.scratch

/-- One tick of `WAIT`, by cases (42_interrupt_decoder.md sections 1 and 4, R131, R132; 60_exceptions.md R182): a run of
the handler that completes the reply ends the call with success even in the tick the deadline is reached; without one
the first tick at the deadline ends it with the error Timeout; before that the wait goes on. The tag `cause` is the model's
own (notes/assumptions/10.md), and `success` keeping its value while the wait goes on its choice
(notes/assumptions/15.md). -/
def Obligations.CompletionBeatsTimeout : Prop :=
  ∀ s : State, Inv s → s.phase = .wait → rstLevel s = false → PortsQuiet s →
    ∃ t, step s = .next t
      ∧ (CompletesNow s → t.phase = .idle ∧ t.done = true ∧ t.success = true ∧ t.cause = none
          ∧ t.byteCounter = s.replyLen)
      ∧ (¬ CompletesNow s → s.cfg.timeoutTicks ≤ s.now - s.t0 →
          t.phase = .idle ∧ t.done = true ∧ t.success = false ∧ t.cause = some .timeout
            ∧ t.byteCounter < s.replyLen)
      ∧ (¬ CompletesNow s → s.now - s.t0 < s.cfg.timeoutTicks →
          t.phase = .wait ∧ t.done = false ∧ t.success = s.success ∧ t.mem.reply = s.mem.reply)

/-- The main flow only reads (20_memory.md section 4, R52): in a tick of `WAIT` without a run of the handler the counters
and the scratch stay as they are. -/
def Obligations.WaitLoopOnlyReads : Prop :=
  ∀ s t : State, s.phase = .wait → rstLevel s = false → step s = .next t →
    ¬ (s.samplePending = true ∧ s.now = s.sampleAt) →
    t.bitCounter = s.bitCounter ∧ t.byteCounter = s.byteCounter ∧ t.mem.scratch = s.mem.scratch

/-! ### The Polling variant -/

/-- R102: in `FIRSTEDGE` a Low line starts the sampling with all four loop registers initialised, a High line changes
nothing. -/
def Obligations.FirstLowLineEndsTheWait : Prop :=
  ∀ (s : State) (code : Byte), s.phase = .firstEdge → memRead s.mem.cmd 0 = some code →
    supportedCode code = true →
    exec .runCommand s = .next
      (if lineLevel s = .low then
        { s with phase := .pollRx, cur := 0, nbits := 0, highCount := 0, pollPrev := .low }
      else s)

/-- R103, R107, R108: the sample step. A High sample is counted; a Low sample after a Low one changes nothing; a Low
sample after a High one closes a cell: its bit is shifted in, a finished byte is stored at once, and the last bit ends
the call with success. -/
def Obligations.SampleStep : Prop :=
  ∀ (s : State) (code : Byte), s.phase = .pollRx → s.mem.wf = true → memRead s.mem.cmd 0 = some code →
    supportedCode code = true → s.nbits < 8 * s.replyLen → s.replyLen ≤ s.mem.reply.size →
    (lineLevel s = .high →
      exec .runCommand s = .next { s with highCount := s.highCount + 1, pollPrev := .high })
    ∧ (lineLevel s = .low → s.pollPrev = .low → exec .runCommand s = .next s)
    ∧ (lineLevel s = .low → s.pollPrev = .high → ∃ t, exec .runCommand s = .next t
        ∧ t.cur.toNat = (2 * s.cur.toNat + (if s.cfg.pollHighThreshold ≤ s.highCount then 1 else 0)) % 256
        ∧ (∀ i, t.mem.reply.byteAt i
            = if (s.nbits + 1) % 8 = 0 ∧ i = (s.nbits + 1) / 8 - 1 then t.cur else s.mem.reply.byteAt i)
        ∧ (s.nbits + 1 = 8 * s.replyLen →
            t.phase = .idle ∧ t.gieInhibit = false ∧ t.done = true ∧ t.success = true)
        ∧ (s.nbits + 1 ≠ 8 * s.replyLen →
            t.phase = .pollRx ∧ t.gieInhibit = s.gieInhibit ∧ t.done = s.done ∧ t.success = s.success
              ∧ t.cause = s.cause)
        ∧ t = { s with
            phase := t.phase, gieInhibit := t.gieInhibit, done := t.done, success := t.success, cause := t.cause
            cur := t.cur, nbits := s.nbits + 1, highCount := 0, pollPrev := .low
            mem := { s.mem with reply := t.mem.reply } })

/-- The Polling variant uses nothing of the Interrupt variant (41_polling_decoder.md section 1, R100): no step arms the
edge interrupt, starts the countdown, suppresses the sources or writes the Transaction State, and interrupts are off
for as long as a transaction is in flight. -/
def Obligations.PollingLeavesTheInterruptPathAlone : Prop :=
  ∀ s t : State, Inv s → s.cfg.decoder = .polling → rstLevel s = false → step s = .next t →
    t.armed = false ∧ t.samplePending = false ∧ t.suppress = false ∧ t.cntRunning = false
      ∧ t.bitCounter = s.bitCounter ∧ t.byteCounter = s.byteCounter ∧ t.mem.scratch = s.mem.scratch
      ∧ t.savedEnable = s.savedEnable ∧ t.savedPending = s.savedPending
      ∧ (busy t = true → t.gieInhibit = true)

/-! ### The step -/

/-- A step runs the instruction on the request ports: when they decode to `i` on a free engine, the step is `exec i`
between the tick's beginning (`done` falls, the surroundings set the sources' bits) and its end. -/
def Obligations.StepRunsTheRequestedInstruction : Prop :=
  ∀ (s : State) (i : Instr), rstLevel s = false → busy s = false → s.access = none →
    decode (.ports s.beginReq s.runReq) = .ok i →
    beginTick s = sampleSources { s with done := false }
      ∧ step s = andThen (exec i (beginTick s)) (fun t => .next (endTick t))

/-- A transaction in flight goes on by itself: the step runs the next tick of `runCommand`, which is that of the row its
command byte selects. -/
def Obligations.StepRunsTheTransactionInFlight : Prop :=
  ∀ (s : State) (code : Byte), rstLevel s = false → busy s = true → PortsQuiet s →
    memRead s.mem.cmd 0 = some code →
    step s = andThen (exec .runCommand (beginTick s)) (fun t => .next (endTick t))
      ∧ exec .runCommand (beginTick s) = exec (decodeCommand code) (beginTick s)

/-- In `SEND` the step runs the Line Driver's operation of the symbol the coming tick lies in, and the countdown. -/
def Obligations.StepRunsTheSymbolInFlight : Prop :=
  ∀ s : State, Inv s → s.phase = .send → rstLevel s = false → PortsQuiet s →
    s.txTick + 1 < frameTicks s.cfg s.cmdLen →
    step s = andThen (exec (symbolInstr (frameSymbolAt s.cfg (sentBytes s) (s.txTick + 1))) (beginTick s))
      (fun t => .next (endTick (countdownTick t)))

/-- On a free engine the host's `decodePoll` runs on the four bytes at the front of its reply buffer. R160 gives a pure
function and no tick: that applying it is a step of its own, asked for by a host access, is the model's choice (DESIGN
CHOICE, notes/assumptions/8.md and 9.md). -/
def Obligations.StepRunsDecodePoll : Prop :=
  ∀ s : State, rstLevel s = false → busy s = false → s.beginReq = false → s.runReq = false →
    s.access = some .decodePoll → 4 ≤ s.mem.reply.size →
    step s = andThen
      (exec (.decodePoll (s.mem.reply.byteAt 0) (s.mem.reply.byteAt 1) (s.mem.reply.byteAt 2) (s.mem.reply.byteAt 3))
        (beginTick s))
      (fun t => .next (endTick t))

/-- A call, and a host access to its buffers, while a transaction is in flight has no meaning (R150, R151, R225;
20_memory.md R41, R42, R55; U3, U15). -/
def Obligations.RequestInFlightIsRefused : Prop :=
  ∀ s : State, rstLevel s = false → busy s = true →
    (s.access = none → s.beginReq ≠ s.runReq → step s = .refused .requestWhileBusy)
    ∧ (s.beginReq = false → s.runReq = false → s.access ≠ none → step s = .refused .accessDuringTransaction)

/-- Every tick but one of reset is one tick long and ends by recording the level of the line (10_state.md R12, R13): the
wired-AND of the engine's drive in that tick and the Controller's. -/
def Obligations.EveryTickRecordsTheLine : Prop :=
  ∀ s t : State, rstLevel s = false → step s = .next t →
    t.now = s.now + 1
      ∧ t.prevLine = (if t.drv = .low ∨ controllerDrive s = .low then .low else .high)
      ∧ t.env = s.env.tail ∧ PortsQuiet t

/-- `success` is held, `done` is low, no transaction starts and the engine leaves the competing sources' enable and
pending bits alone in every tick between two calls (10_state.md R10, R25, R27), whatever else the host does in it:
nothing, `begin()`, or an access to its own memory. -/
def Obligations.ResultIsHeldUntilTheNextCall : Prop :=
  ∀ s t : State, busy s = false → rstLevel s = false → (beginTick s).runReq = false → step s = .next t →
    t.success = s.success ∧ t.done = false ∧ busy t = false ∧ t.compEnable = (beginTick s).compEnable
      ∧ t.compPending = (beginTick s).compPending

/-- What is built in cannot be switched at run time (00_scope.md R5, D9; R70). -/
def Obligations.ConfigurationIsFixed : Prop :=
  ∀ s t : State, step s = .next t → t.cfg = s.cfg

/-- A tick of reset (10_state.md section 9, R29): the registers the table gives a value have it, and the host's buffers,
which are "not reset by the engine", stay. R29 does not list the competing sources' bits: that they stay, in flight
while suppressed too, is the model's choice (DESIGN CHOICE, notes/assumptions/16.md). -/
def Obligations.ResetPortResetsTheEngine : Prop :=
  ∀ s : State, rstLevel s = true → ∃ t, step s = .next t
    ∧ t.phase = .uninit ∧ Passive t ∧ t.timeoutFlag = false ∧ t.success = false ∧ t.done = false
    ∧ t.mem.cmd = s.mem.cmd ∧ t.mem.reply = s.mem.reply ∧ t.compEnable = s.compEnable
    ∧ t.compPending = s.compPending ∧ t.cfg = s.cfg

/-- The state right after reset has the values the table of R29 gives (10_state.md section 9); the values of the
registers it calls unspecified are the model's choice (notes/assumptions/1.md) and are not part of this statement. -/
def Obligations.ResetStateHasTheTablesValues : Prop :=
  State.reset.phase = .uninit ∧ Passive State.reset ∧ State.reset.timeoutFlag = false
    ∧ State.reset.success = false ∧ State.reset.done = false

/-! ### Invariants and whole-machine rules -/

/-- The invariant holds right after reset. -/
def Obligations.ResetMeetsTheInvariant : Prop := Inv State.reset

/-- Every step keeps the invariant: the buffers' canonical form; in `IDLE` the idle invariant of R30; in `SEND` the
waveform on the pin and interrupts off; in `WAIT` armed, counters in range, the reply incomplete; in the Polling phases
interrupts off and nothing armed; the pin Low in no phase but `SEND`. -/
def Obligations.StepKeepsTheInvariant : Prop :=
  ∀ s t : State, Inv s → step s = .next t → Inv t

/-- No rule issues a buffer access outside its range (20_memory.md R44): from a state with the invariant no step
faults. -/
def Obligations.NoAccessOutOfRange : Prop :=
  ∀ (s : State) (e : Fault), Inv s → step s ≠ .fault e

/-- A transaction ends in `IDLE` with the idle invariant, in the tick of `done`, and in no other way (10_state.md R30;
43_commands.md R162; 60_exceptions.md R184): nothing is fatal. -/
def Obligations.EveryReturnLeavesTheEngineReady : Prop :=
  ∀ s t : State, Inv s → busy s = true → rstLevel s = false → step s = .next t →
    (t.done = true → t.phase = .idle ∧ Passive t) ∧ (t.done = false → busy t = true)

/-- What a tick of a transaction in flight may touch outside the engine (20_memory.md R41, R42; 00_scope.md R8): of the
reply buffer the indices below `replySize`, of the command nothing; the host, blocked, does nothing. -/
def Obligations.TransactionKeepsToItsBuffers : Prop :=
  ∀ s t : State, Inv s → busy s = true → rstLevel s = false → step s = .next t →
    t.mem.cmd = s.mem.cmd ∧ t.mem.reply.size = s.mem.reply.size
      ∧ (∀ i, s.replyLen ≤ i → t.mem.reply.byteAt i = s.mem.reply.byteAt i)
      ∧ t.script = s.script ∧ t.report = s.report ∧ t.replySize = s.replySize

/-! ### Whole transactions -/

/-- The frame on the wire (40_line_driver.md section 2): from the accept tick on, tick by tick, the engine drives the
waveform of the command, in `SEND`, with `txTick` counting and global interrupts suppressed. -/
def Obligations.CallPutsItsFrameOnTheWire : Prop :=
  ∀ (s : State) (j : Nat), LegalCall s → NoReset (j + 1) s → j < callFrameTicks s →
    ∃ t, runTicks (j + 1) s = .next t ∧ t.phase = .send ∧ t.txTick = j
      ∧ (waveform s.cfg (callBytes s))[j]? = some t.drv
      ∧ t.gieInhibit = true ∧ t.armed = false ∧ t.t0 = s.now ∧ t.now = s.now + j + 1

/-- The bound of 42_interrupt_decoder.md section 4 (R139): whatever the Controller does, an Interrupt transaction returns
no later than tick `t0 + max(TIMEOUT_TICKS, N)`. -/
def Obligations.InterruptCallAlwaysReturns : Prop :=
  ∀ s : State, LegalCall s → s.cfg.decoder = .interrupt →
    NoReset (max s.cfg.timeoutTicks (callFrameTicks s) + 1) s →
    ∃ k t, 1 ≤ k ∧ k ≤ max s.cfg.timeoutTicks (callFrameTicks s) + 1
      ∧ runTicks k s = .next t ∧ t.done = true ∧ t.phase = .idle ∧ Passive t

/-- Against a silent Controller an Interrupt transaction fails in exactly tick `t0 + TIMEOUT_TICKS` (when that is not
before `t_a`), with no byte received and the reply all zero, and has not returned before (R139). The tag `cause` is the model's own
(notes/assumptions/10.md). -/
def Obligations.SilentControllerTimesOut : Prop :=
  ∀ s : State, LegalCall s → s.cfg.decoder = .interrupt → callFrameTicks s ≤ s.cfg.timeoutTicks →
    NoReset (s.cfg.timeoutTicks + 1) s → ControllerSends (silence (s.cfg.timeoutTicks + 1)) s →
    (∃ t, runTicks (s.cfg.timeoutTicks + 1) s = .next t ∧ t.done = true ∧ t.success = false
      ∧ t.cause = some .timeout ∧ t.byteCounter = 0 ∧ ∀ i, i < s.replySize → t.mem.reply.byteAt i = 0)
    ∧ ∀ k, 1 ≤ k → k ≤ s.cfg.timeoutTicks → ∃ u, runTicks k s = .next u ∧ u.done = false

/-- The central property of the Interrupt variant (95_test_vectors.md S2; R139): against a Controller that answers with
well-formed cells after a gap, and in time, the call returns success with exactly the bytes presented on the line, and
touches no byte of the buffer behind them. -/
def Obligations.InterruptCallReceivesTheReply : Prop :=
  ∀ (s : State) (bytes : List Byte) (gap : Nat),
    LegalCall s → s.cfg.decoder = .interrupt → sampleDelayLegal s.cfg = true →
    bytes.length = s.replySize →
    callFrameTicks s + gap + 4 * s.cfg.ticksPerUnit * (8 * s.replySize - 1) + s.cfg.sampleDelayTicks
      ≤ s.cfg.timeoutTicks →
    NoReset (callFrameTicks s + gap + 32 * s.cfg.ticksPerUnit * s.replySize) s →
    ControllerSends (silence (callFrameTicks s + gap) ++ replyCells s.cfg bytes) s →
    ∃ t, runTicks (callFrameTicks s + gap + 4 * s.cfg.ticksPerUnit * (8 * s.replySize - 1)
          + s.cfg.sampleDelayTicks + 1) s = .next t
      ∧ t.done = true ∧ t.success = true
      ∧ ∀ i, t.mem.reply.byteAt i = if i < s.replySize then bytes.getD i 0 else s.mem.reply.byteAt i

/-- The same for the Polling variant, which needs one more falling edge behind the last cell (95_test_vectors.md S2;
41_polling_decoder.md R111). -/
def Obligations.PollingCallReceivesTheReply : Prop :=
  ∀ (s : State) (bytes : List Byte) (gap : Nat),
    LegalCall s → s.cfg.decoder = .polling → thresholdLegal s.cfg = true →
    bytes.length = s.replySize →
    NoReset (callFrameTicks s + gap + 32 * s.cfg.ticksPerUnit * s.replySize + 1) s →
    ControllerSends (silence (callFrameTicks s + gap) ++ replyCells s.cfg bytes ++ [.low]) s →
    ∃ t, runTicks (callFrameTicks s + gap + 32 * s.cfg.ticksPerUnit * s.replySize + 1) s = .next t
      ∧ t.done = true ∧ t.success = true
      ∧ ∀ i, t.mem.reply.byteAt i = if i < s.replySize then bytes.getD i 0 else s.mem.reply.byteAt i

/-- The hang (41_polling_decoder.md section 3, R109): against a silent Controller the Polling variant stays in
`FIRSTEDGE` for as long as one looks, with interrupts off. -/
def Obligations.PollingCallHangsOnSilence : Prop :=
  ∀ (s : State) (k : Nat), LegalCall s → s.cfg.decoder = .polling →
    NoReset (callFrameTicks s + k + 1) s → ControllerSends (silence (callFrameTicks s + k + 1)) s →
    ∃ t, runTicks (callFrameTicks s + k + 1) s = .next t ∧ t.phase = .firstEdge ∧ t.done = false
      ∧ t.gieInhibit = true ∧ ∀ i, i < s.replySize → t.mem.reply.byteAt i = 0

/-- R111: without one more falling edge behind the last data cell the Polling variant stays in `POLLRX` with the last
bit undecided, for as long as one looks. -/
def Obligations.LastBitNeedsOneMoreEdge : Prop :=
  ∀ (s : State) (bytes : List Byte) (gap k : Nat),
    LegalCall s → s.cfg.decoder = .polling → bytes.length = s.replySize →
    NoReset (callFrameTicks s + gap + 32 * s.cfg.ticksPerUnit * s.replySize + k) s →
    ControllerSends (silence (callFrameTicks s + gap) ++ replyCells s.cfg bytes ++ silence k) s →
    ∃ t, runTicks (callFrameTicks s + gap + 32 * s.cfg.ticksPerUnit * s.replySize + k) s = .next t
      ∧ t.phase = .pollRx ∧ t.nbits = 8 * s.replySize - 1 ∧ t.done = false ∧ t.gieInhibit = true

/-- R130: with the two timeout strategies built into otherwise equal engines, the host sees the same in every tick of
every run, whatever it asks for and whatever the Controller drives. -/
def Obligations.StrategiesLookTheSameToTheHost : Prop :=
  ∀ (s : State) (k : Nat), s.phase = .uninit ∨ s.phase = .idle → Passive s →
    resultView (runTicks k (withStrategy .timestamp s)) = resultView (runTicks k (withStrategy .countdown s))

/-- The competing sources are restored by the time the call returns, on every path (42_interrupt_decoder.md section 1,
R137; 70_reset_and_hazards.md R221): their bits are the ones from before the transaction, nothing is suppressed, the
pin is released. -/
def Obligations.SuppressionIsAlwaysReleased : Prop :=
  ∀ (s t : State) (k : Nat), LegalCall s → NoReset k s → SourcesQuiet k s → 1 ≤ k →
    (∀ j, 1 ≤ j → j < k → ∃ u, runTicks j s = .next u ∧ u.done = false) →
    runTicks k s = .next t → t.done = true →
    t.compEnable = s.compEnable ∧ t.compPending = s.compPending ∧ t.suppress = false
      ∧ t.gieInhibit = false ∧ t.drv = .released
end

