-- ==== Sys2Proof/Laws/Decode.lean ====
section
/-!
SUPPORT. The shapes of the line symbols and of a byte's cells, for proofs about frames.
-/

namespace Sys2Proof

/-- A cell of a bit lasts `4*S` ticks, STOP `S + STOP_HIGH_TICKS` (R62). -/
theorem symbolWave_length (c : Config) (sym : Symbol) :
    (symbolWave c sym).length = match sym with
      | .zero => 4 * c.ticksPerUnit
      | .one => 4 * c.ticksPerUnit
      | .stop => c.ticksPerUnit + c.stopHighTicks := by
  cases sym <;> simp only [symbolWave, symbolLowTicks, symbolReleasedTicks, List.length_append, List.length_replicate] <;>
    omega

/-- Tick `k` of a symbol, read off the whole symbol. -/
theorem symbolWave_getElem? (c : Config) (sym : Symbol) {k : Nat} (h : k < (symbolWave c sym).length) :
    (symbolWave c sym)[k]? = some (symbolDrive c sym k) := by
  simp only [symbolWave, List.length_append, List.length_replicate] at h
  unfold symbolWave symbolDrive
  by_cases hk : k < symbolLowTicks c sym
  · rw [List.getElem?_append_left (by simpa using hk), if_pos hk, List.getElem?_replicate, if_pos hk]
  · rw [List.getElem?_append_right (by simpa using hk), if_neg hk, List.length_replicate,
      List.getElem?_replicate, if_pos (by omega)]

theorem byteSymbols_length (b : Byte) : (byteSymbols b).length = 8 := rfl

theorem bitSymbol_ne_stop (bit : Bool) : bitSymbol bit ≠ .stop := by
  cases bit <;> simp [bitSymbol]

theorem frameSymbols_length (bytes : List Byte) : (frameSymbols bytes).length = 8 * bytes.length + 1 := by
  induction bytes with
  | nil => rfl
  | cons b rest ih =>
    simp only [frameSymbols, List.flatMap_cons, List.append_assoc, List.length_append, List.length_cons,
      byteSymbols_length] at ih ⊢
    omega

/-- A frame is a reply's cells and a STOP: the same encoding in both directions (R61, R63). -/
theorem waveform_eq_cells (c : Config) (bytes : List Byte) :
    waveform c bytes = replyCells c bytes ++ symbolWave c .stop := by
  simp [waveform, replyCells, frameSymbols]

end Sys2Proof
end

