-- ==== Sys2Proof/Laws/Memory.lean ====
section
/-!
SUPPORT. The laws of the buffers: read after write, the canonical form and the size are kept, and what the
zero-fill, the copy and a buffer made from bytes hold.
-/

namespace Sys2Proof.Machine

/-! ### Cells -/

theorem cellsWf_mono {size low low' : Nat} {cells : List Host.Cell} (h : cellsWf size low cells = true)
    (hl : low' ≤ low) : cellsWf size low' cells = true := by
  cases cells with
  | nil => rfl
  | cons c rest =>
    obtain ⟨a, v⟩ := c
    simp only [cellsWf, Bool.and_eq_true, decide_eq_true_eq] at h ⊢
    exact ⟨⟨⟨by omega, h.1.1.2⟩, h.1.2⟩, h.2⟩

/-- An index below every listed one is not listed. -/
theorem lookupCell_below {size low i : Nat} {cells : List Host.Cell} (h : cellsWf size low cells = true)
    (hi : i < low) : lookupCell cells i = unlistedByte := by
  induction cells generalizing low with
  | nil => rfl
  | cons c rest ih =>
    obtain ⟨a, v⟩ := c
    simp only [cellsWf, Bool.and_eq_true, decide_eq_true_eq] at h
    have hne : a ≠ i := by omega
    simp only [lookupCell, hne, if_false]
    exact ih h.2 (by omega)

/-- Read after write. -/
theorem lookupCell_storeCell {size low : Nat} {cells : List Host.Cell} (h : cellsWf size low cells = true)
    (i j : Nat) (v : Byte) :
    lookupCell (storeCell cells i v) j = if j = i then v else lookupCell cells j := by
  induction cells generalizing low with
  | nil =>
    by_cases hv : v = unlistedByte <;> by_cases hj : j = i
    · simp [storeCell, hv, lookupCell, hj]
    · simp [storeCell, hv, lookupCell, hj]
    · simp [storeCell, hv, lookupCell, hj]
    · simp [storeCell, hv, lookupCell, hj, Ne.symm hj]
  | cons c rest ih =>
    obtain ⟨a, w⟩ := c
    simp only [cellsWf, Bool.and_eq_true, decide_eq_true_eq] at h
    have hbelow : i < a + 1 → lookupCell rest i = unlistedByte := lookupCell_below h.2
    rcases Nat.lt_trichotomy i a with hlt | heq | hgt
    · have hne : a ≠ i := by omega
      have hbelow' := hbelow (by omega)
      by_cases hv : v = unlistedByte <;> by_cases hj : j = i
      · subst hj; simp [storeCell, hlt, hv, lookupCell, hne, hbelow']
      · simp [storeCell, hlt, hv, hj]
      · subst hj; simp [storeCell, hlt, hv, lookupCell]
      · simp [storeCell, hlt, hv, lookupCell, hj, Ne.symm hj]
    · subst heq
      have hbelow' := hbelow (by omega)
      by_cases hv : v = unlistedByte <;> by_cases hj : j = i
      · subst hj; simp [storeCell, hv, hbelow']
      · simp [storeCell, hv, lookupCell, hj, Ne.symm hj]
      · subst hj; simp [storeCell, hv, lookupCell]
      · simp [storeCell, hv, lookupCell, hj, Ne.symm hj]
    · have hn1 : ¬ i < a := by omega
      have hn2 : i ≠ a := by omega
      simp only [storeCell, hn1, hn2, if_false, lookupCell]
      by_cases hja : a = j
      · subst hja; simp [Ne.symm hn2]
      · simp only [hja, if_false]; exact ih h.2

/-- A write keeps the canonical form. -/
theorem cellsWf_storeCell {size low i : Nat} {cells : List Host.Cell} (h : cellsWf size low cells = true)
    (hi : i < size) (hlow : low ≤ i) (v : Byte) : cellsWf size low (storeCell cells i v) = true := by
  induction cells generalizing low with
  | nil => by_cases hv : v = unlistedByte <;> simp [storeCell, cellsWf, hv, hi, hlow]
  | cons c rest ih =>
    obtain ⟨a, w⟩ := c
    simp only [cellsWf, Bool.and_eq_true, decide_eq_true_eq] at h
    have hrest : cellsWf size (a + 1) rest = true := h.2
    rcases Nat.lt_trichotomy i a with hlt | heq | hgt
    · by_cases hv : v = unlistedByte
      · simp only [storeCell, hlt, hv, if_true, cellsWf, Bool.and_eq_true, decide_eq_true_eq]
        exact h
      · simp only [storeCell, hlt, hv, if_true, if_false, cellsWf, Bool.and_eq_true, decide_eq_true_eq]
        exact ⟨⟨⟨hlow, hi⟩, hv⟩, ⟨⟨by omega, h.1.1.2⟩, h.1.2⟩, hrest⟩
    · subst heq
      have hn : ¬ i < i := by omega
      by_cases hv : v = unlistedByte
      · simp only [storeCell, hn, hv, if_true, if_false]
        exact cellsWf_mono hrest (by omega)
      · simp only [storeCell, hn, hv, if_true, if_false, cellsWf, Bool.and_eq_true, decide_eq_true_eq]
        exact ⟨⟨⟨hlow, hi⟩, hv⟩, hrest⟩
    · have hn1 : ¬ i < a := by omega
      have hn2 : i ≠ a := by omega
      simp only [storeCell, hn1, hn2, if_false, cellsWf, Bool.and_eq_true, decide_eq_true_eq]
      exact ⟨⟨⟨h.1.1.1, h.1.1.2⟩, h.1.2⟩, ih hrest (by omega)⟩

/-! ### `MemRead` and `MemWrite` -/

theorem memRead_eq_some {b : Buffer} {i : Nat} (h : i < b.size) : memRead b i = some (b.byteAt i) := by
  simp [memRead, h]

theorem memRead_some_iff {b : Buffer} {i : Nat} {v : Byte} :
    memRead b i = some v ↔ i < b.size ∧ b.byteAt i = v := by
  by_cases h : i < b.size <;> simp [memRead, h]

theorem memWrite_eq_some {b : Buffer} {i : Nat} (h : i < b.size) (v : Byte) :
    memWrite b i v = some { b with cells := storeCell b.cells i v } := by
  simp [memWrite, h]

theorem memWrite_size {b b' : Buffer} {i : Nat} {v : Byte} (h : memWrite b i v = some b') : b'.size = b.size := by
  unfold memWrite at h
  split at h
  · cases h; rfl
  · cases h

theorem memWrite_inRange {b b' : Buffer} {i : Nat} {v : Byte} (h : memWrite b i v = some b') : i < b.size := by
  unfold memWrite at h
  split at h
  · assumption
  · cases h

/-- Read after write: the written byte, and every other byte as before. -/
theorem memWrite_byteAt {b b' : Buffer} {i : Nat} {v : Byte} (hwf : b.wf = true)
    (h : memWrite b i v = some b') (j : Nat) : b'.byteAt j = if j = i then v else b.byteAt j := by
  have hi := memWrite_inRange h
  rw [memWrite_eq_some hi] at h
  cases h
  exact lookupCell_storeCell hwf i j v

theorem memWrite_wf {b b' : Buffer} {i : Nat} {v : Byte} (hwf : b.wf = true)
    (h : memWrite b i v = some b') : b'.wf = true := by
  have hi := memWrite_inRange h
  rw [memWrite_eq_some hi] at h
  cases h
  exact cellsWf_storeCell hwf hi (Nat.zero_le _) v

/-! ### The zero-fill (R56) -/

/-- What the zero-fill of `n` bytes does to a buffer that has as many. -/
theorem zeroFill_spec {b : Buffer} (hwf : b.wf = true) :
    ∀ n, n ≤ b.size → ∃ b', zeroFill b n = some b' ∧ b'.wf = true ∧ b'.size = b.size
      ∧ ∀ i, b'.byteAt i = if i < n then 0 else b.byteAt i := by
  intro n
  induction n with
  | zero => intro _; exact ⟨b, rfl, hwf, rfl, by simp⟩
  | succ n ih =>
    intro hn
    obtain ⟨b1, h1, hwf1, hsz1, hb1⟩ := ih (by omega)
    have hlt : n < b1.size := by omega
    have hw : memWrite b1 n 0 = some { b1 with cells := storeCell b1.cells n 0 } := memWrite_eq_some hlt 0
    refine ⟨_, by rw [zeroFill, h1, Option.bind_some, hw], memWrite_wf hwf1 hw, ?_, ?_⟩
    · simpa using hsz1
    · intro i
      rw [memWrite_byteAt hwf1 hw i, hb1 i]
      by_cases hi : i = n
      · simp [hi]
      · have : i < n + 1 ↔ i < n := by omega
        simp [hi, this]

/-! ### The step-7 copy (R134) -/

/-- What the copy of `n` bytes does between two buffers that have as many. -/
theorem copyBytes_spec {src dst : Buffer} (hwf : dst.wf = true) :
    ∀ n, n ≤ src.size → n ≤ dst.size → ∃ d, copyBytes src dst n = some d ∧ d.wf = true ∧ d.size = dst.size
      ∧ ∀ i, d.byteAt i = if i < n then src.byteAt i else dst.byteAt i := by
  intro n
  induction n with
  | zero => intro _ _; exact ⟨dst, rfl, hwf, rfl, by simp⟩
  | succ n ih =>
    intro hs hd
    obtain ⟨d1, h1, hwf1, hsz1, hb1⟩ := ih (by omega) (by omega)
    have hw : memWrite d1 n (src.byteAt n) = some { d1 with cells := storeCell d1.cells n (src.byteAt n) } :=
      memWrite_eq_some (by omega) _
    have hr : memRead src n = some (src.byteAt n) := memRead_eq_some (by omega)
    refine ⟨_, by rw [copyBytes, h1, Option.bind_some, hr, Option.bind_some, hw], memWrite_wf hwf1 hw, ?_, ?_⟩
    · simpa using hsz1
    · intro i
      rw [memWrite_byteAt hwf1 hw i, hb1 i]
      by_cases hi : i = n
      · simp [hi]
      · have : i < n + 1 ↔ i < n := by omega
        simp [hi, this]

/-! ### Buffers made from bytes -/

theorem storeBytes_spec {size : Nat} :
    ∀ (bytes : List Byte) (i : Nat) (cells : List Host.Cell), cellsWf size 0 cells = true →
      i + bytes.length ≤ size →
      cellsWf size 0 (storeBytes cells i bytes) = true
        ∧ ∀ j, lookupCell (storeBytes cells i bytes) j
            = if i ≤ j ∧ j < i + bytes.length then bytes.getD (j - i) 0 else lookupCell cells j := by
  intro bytes
  induction bytes with
  | nil =>
    intro i cells h _
    refine ⟨h, fun j => ?_⟩
    have : ¬ (i ≤ j ∧ j < i + 0) := by omega
    rw [storeBytes, List.length_nil, if_neg this]
  | cons v rest ih =>
    intro i cells h hlen
    simp only [List.length_cons] at hlen ⊢
    have hst := cellsWf_storeCell h (i := i) (by omega) (Nat.zero_le _) v
    obtain ⟨hw, hl⟩ := ih (i + 1) (storeCell cells i v) hst (by omega)
    refine ⟨hw, fun j => ?_⟩
    rw [storeBytes, hl j, lookupCell_storeCell h]
    by_cases hji : j = i
    · subst hji
      simp
    · by_cases hin : i + 1 ≤ j ∧ j < i + 1 + rest.length
      · have h2 : i ≤ j ∧ j < i + (rest.length + 1) := by omega
        have h3 : j - i = j - (i + 1) + 1 := by omega
        simp [hin, h2, h3]
      · have h2 : ¬ (i ≤ j ∧ j < i + (rest.length + 1)) := by omega
        rw [if_neg hin, if_neg hji, if_neg h2]

theorem bufferOf_size (bytes : List Byte) : (bufferOf bytes).size = bytes.length := rfl

theorem bufferOf_wf (bytes : List Byte) : (bufferOf bytes).wf = true :=
  (storeBytes_spec (size := bytes.length) bytes 0 [] rfl (by simp)).1

theorem bufferOf_byteAt (bytes : List Byte) {i : Nat} (h : i < bytes.length) :
    (bufferOf bytes).byteAt i = bytes.getD i 0 := by
  have := (storeBytes_spec (size := bytes.length) bytes 0 [] rfl (by simp)).2 i
  simpa [bufferOf, Buffer.byteAt, h] using this

theorem zeroBuffer_wf (size : Nat) : (zeroBuffer size).wf = true := rfl

theorem zeroBuffer_byteAt (size i : Nat) : (zeroBuffer size).byteAt i = 0 := rfl

/-! ### The bytes at the front of a buffer -/

theorem firstBytes_eq_some {b : Buffer} {n : Nat} (h : n ≤ b.size) :
    firstBytes b n = some ((List.range n).map b.byteAt) := by
  simp [firstBytes, h]

theorem firstBytes_length {b : Buffer} {n : Nat} {bytes : List Byte} (h : firstBytes b n = some bytes) :
    bytes.length = n := by
  unfold firstBytes at h
  split at h
  · cases h; simp
  · cases h

/-! ### The machine's memory -/

theorem memory_wf_iff {m : Memory} : m.wf = true ↔
    m.cmd.wf = true ∧ m.reply.wf = true ∧ m.scratch.wf = true ∧ m.scratch.size = scratchCap := by
  simp [Memory.wf, and_assoc]

theorem reset_memory_wf : State.reset.mem.wf = true := by decide

end Sys2Proof.Machine
end

