-- ==== Sys2Proof/Laws/State.lean ====
section
/-!
SUPPORT. What every plain update of the state leaves in every field: one rewriting rule a field, all true by rfl.
Conditional updates follow, each with the fields it cannot touch.
-/

namespace Sys2Proof.Machine

@[simp] theorem returnCall_fields (ok : Bool) (cause : Option Cause) (s : State) :
    (returnCall ok cause s).cfg = s.cfg ∧ (returnCall ok cause s).now = s.now ∧ (returnCall ok cause s).phase = s.phase
    ∧ (returnCall ok cause s).txTick = s.txTick ∧ (returnCall ok cause s).cmdLen = s.cmdLen ∧ (returnCall ok cause s).replyLen = s.replyLen
    ∧ (returnCall ok cause s).t0 = s.t0 ∧ (returnCall ok cause s).drv = s.drv ∧ (returnCall ok cause s).prevLine = s.prevLine
    ∧ (returnCall ok cause s).bitCounter = s.bitCounter ∧ (returnCall ok cause s).byteCounter = s.byteCounter ∧ (returnCall ok cause s).mem = s.mem
    ∧ (returnCall ok cause s).cur = s.cur ∧ (returnCall ok cause s).nbits = s.nbits ∧ (returnCall ok cause s).highCount = s.highCount
    ∧ (returnCall ok cause s).pollPrev = s.pollPrev ∧ (returnCall ok cause s).success = ok ∧ (returnCall ok cause s).done = true
    ∧ (returnCall ok cause s).cause = cause ∧ (returnCall ok cause s).cnt = s.cnt ∧ (returnCall ok cause s).cntRunning = s.cntRunning
    ∧ (returnCall ok cause s).timeoutFlag = s.timeoutFlag ∧ (returnCall ok cause s).armed = s.armed ∧ (returnCall ok cause s).samplePending = s.samplePending
    ∧ (returnCall ok cause s).sampleAt = s.sampleAt ∧ (returnCall ok cause s).gieInhibit = s.gieInhibit ∧ (returnCall ok cause s).suppress = s.suppress
    ∧ (returnCall ok cause s).savedEnable = s.savedEnable ∧ (returnCall ok cause s).savedPending = s.savedPending ∧ (returnCall ok cause s).compEnable = s.compEnable
    ∧ (returnCall ok cause s).compPending = s.compPending ∧ (returnCall ok cause s).beginReq = s.beginReq ∧ (returnCall ok cause s).runReq = s.runReq
    ∧ (returnCall ok cause s).replySize = s.replySize ∧ (returnCall ok cause s).access = s.access ∧ (returnCall ok cause s).script = s.script
    ∧ (returnCall ok cause s).env = s.env ∧ (returnCall ok cause s).draws = s.draws ∧ (returnCall ok cause s).report = s.report := by
  refine ⟨?_, ?_, ?_, ?_, ?_, ?_, ?_, ?_, ?_, ?_, ?_, ?_, ?_, ?_, ?_, ?_, ?_, ?_, ?_, ?_, ?_, ?_, ?_, ?_, ?_, ?_, ?_, ?_, ?_, ?_, ?_, ?_, ?_, ?_, ?_, ?_, ?_, ?_, ?_⟩ <;> rfl

@[simp] theorem raiseError_fields (cause : Cause) (s : State) :
    (raiseError cause s).cfg = s.cfg ∧ (raiseError cause s).now = s.now ∧ (raiseError cause s).phase = s.phase
    ∧ (raiseError cause s).txTick = s.txTick ∧ (raiseError cause s).cmdLen = s.cmdLen ∧ (raiseError cause s).replyLen = s.replyLen
    ∧ (raiseError cause s).t0 = s.t0 ∧ (raiseError cause s).drv = s.drv ∧ (raiseError cause s).prevLine = s.prevLine
    ∧ (raiseError cause s).bitCounter = s.bitCounter ∧ (raiseError cause s).byteCounter = s.byteCounter ∧ (raiseError cause s).mem = s.mem
    ∧ (raiseError cause s).cur = s.cur ∧ (raiseError cause s).nbits = s.nbits ∧ (raiseError cause s).highCount = s.highCount
    ∧ (raiseError cause s).pollPrev = s.pollPrev ∧ (raiseError cause s).success = false ∧ (raiseError cause s).done = true
    ∧ (raiseError cause s).cause = some cause ∧ (raiseError cause s).cnt = s.cnt ∧ (raiseError cause s).cntRunning = s.cntRunning
    ∧ (raiseError cause s).timeoutFlag = s.timeoutFlag ∧ (raiseError cause s).armed = s.armed ∧ (raiseError cause s).samplePending = s.samplePending
    ∧ (raiseError cause s).sampleAt = s.sampleAt ∧ (raiseError cause s).gieInhibit = s.gieInhibit ∧ (raiseError cause s).suppress = s.suppress
    ∧ (raiseError cause s).savedEnable = s.savedEnable ∧ (raiseError cause s).savedPending = s.savedPending ∧ (raiseError cause s).compEnable = s.compEnable
    ∧ (raiseError cause s).compPending = s.compPending ∧ (raiseError cause s).beginReq = s.beginReq ∧ (raiseError cause s).runReq = s.runReq
    ∧ (raiseError cause s).replySize = s.replySize ∧ (raiseError cause s).access = s.access ∧ (raiseError cause s).script = s.script
    ∧ (raiseError cause s).env = s.env ∧ (raiseError cause s).draws = s.draws ∧ (raiseError cause s).report = s.report := by
  refine ⟨?_, ?_, ?_, ?_, ?_, ?_, ?_, ?_, ?_, ?_, ?_, ?_, ?_, ?_, ?_, ?_, ?_, ?_, ?_, ?_, ?_, ?_, ?_, ?_, ?_, ?_, ?_, ?_, ?_, ?_, ?_, ?_, ?_, ?_, ?_, ?_, ?_, ?_, ?_⟩ <;> rfl

@[simp] theorem initialise_fields (s : State) :
    (initialise s).cfg = s.cfg ∧ (initialise s).now = s.now ∧ (initialise s).phase = .idle
    ∧ (initialise s).txTick = s.txTick ∧ (initialise s).cmdLen = s.cmdLen ∧ (initialise s).replyLen = s.replyLen
    ∧ (initialise s).t0 = s.t0 ∧ (initialise s).drv = .released ∧ (initialise s).prevLine = s.prevLine
    ∧ (initialise s).bitCounter = s.bitCounter ∧ (initialise s).byteCounter = s.byteCounter ∧ (initialise s).mem = s.mem
    ∧ (initialise s).cur = s.cur ∧ (initialise s).nbits = s.nbits ∧ (initialise s).highCount = s.highCount
    ∧ (initialise s).pollPrev = s.pollPrev ∧ (initialise s).success = s.success ∧ (initialise s).done = s.done
    ∧ (initialise s).cause = s.cause ∧ (initialise s).cnt = s.cnt ∧ (initialise s).cntRunning = false
    ∧ (initialise s).timeoutFlag = false ∧ (initialise s).armed = false ∧ (initialise s).samplePending = false
    ∧ (initialise s).sampleAt = s.sampleAt ∧ (initialise s).gieInhibit = false ∧ (initialise s).suppress = false
    ∧ (initialise s).savedEnable = s.savedEnable ∧ (initialise s).savedPending = s.savedPending ∧ (initialise s).compEnable = s.compEnable
    ∧ (initialise s).compPending = s.compPending ∧ (initialise s).beginReq = s.beginReq ∧ (initialise s).runReq = s.runReq
    ∧ (initialise s).replySize = s.replySize ∧ (initialise s).access = s.access ∧ (initialise s).script = s.script
    ∧ (initialise s).env = s.env ∧ (initialise s).draws = s.draws ∧ (initialise s).report = s.report := by
  refine ⟨?_, ?_, ?_, ?_, ?_, ?_, ?_, ?_, ?_, ?_, ?_, ?_, ?_, ?_, ?_, ?_, ?_, ?_, ?_, ?_, ?_, ?_, ?_, ?_, ?_, ?_, ?_, ?_, ?_, ?_, ?_, ?_, ?_, ?_, ?_, ?_, ?_, ?_, ?_⟩ <;> rfl

@[simp] theorem acquireSources_fields (s : State) :
    (acquireSources s).cfg = s.cfg ∧ (acquireSources s).now = s.now ∧ (acquireSources s).phase = s.phase
    ∧ (acquireSources s).txTick = s.txTick ∧ (acquireSources s).cmdLen = s.cmdLen ∧ (acquireSources s).replyLen = s.replyLen
    ∧ (acquireSources s).t0 = s.t0 ∧ (acquireSources s).drv = s.drv ∧ (acquireSources s).prevLine = s.prevLine
    ∧ (acquireSources s).bitCounter = s.bitCounter ∧ (acquireSources s).byteCounter = s.byteCounter ∧ (acquireSources s).mem = s.mem
    ∧ (acquireSources s).cur = s.cur ∧ (acquireSources s).nbits = s.nbits ∧ (acquireSources s).highCount = s.highCount
    ∧ (acquireSources s).pollPrev = s.pollPrev ∧ (acquireSources s).success = s.success ∧ (acquireSources s).done = s.done
    ∧ (acquireSources s).cause = s.cause ∧ (acquireSources s).cnt = s.cnt ∧ (acquireSources s).cntRunning = s.cntRunning
    ∧ (acquireSources s).timeoutFlag = s.timeoutFlag ∧ (acquireSources s).armed = s.armed ∧ (acquireSources s).samplePending = s.samplePending
    ∧ (acquireSources s).sampleAt = s.sampleAt ∧ (acquireSources s).gieInhibit = s.gieInhibit ∧ (acquireSources s).suppress = true
    ∧ (acquireSources s).savedEnable = s.compEnable ∧ (acquireSources s).savedPending = s.compPending ∧ (acquireSources s).compEnable = Sources.none
    ∧ (acquireSources s).compPending = s.compPending ∧ (acquireSources s).beginReq = s.beginReq ∧ (acquireSources s).runReq = s.runReq
    ∧ (acquireSources s).replySize = s.replySize ∧ (acquireSources s).access = s.access ∧ (acquireSources s).script = s.script
    ∧ (acquireSources s).env = s.env ∧ (acquireSources s).draws = s.draws ∧ (acquireSources s).report = s.report := by
  refine ⟨?_, ?_, ?_, ?_, ?_, ?_, ?_, ?_, ?_, ?_, ?_, ?_, ?_, ?_, ?_, ?_, ?_, ?_, ?_, ?_, ?_, ?_, ?_, ?_, ?_, ?_, ?_, ?_, ?_, ?_, ?_, ?_, ?_, ?_, ?_, ?_, ?_, ?_, ?_⟩ <;> rfl

@[simp] theorem releaseSources_fields (s : State) :
    (releaseSources s).cfg = s.cfg ∧ (releaseSources s).now = s.now ∧ (releaseSources s).phase = s.phase
    ∧ (releaseSources s).txTick = s.txTick ∧ (releaseSources s).cmdLen = s.cmdLen ∧ (releaseSources s).replyLen = s.replyLen
    ∧ (releaseSources s).t0 = s.t0 ∧ (releaseSources s).drv = s.drv ∧ (releaseSources s).prevLine = s.prevLine
    ∧ (releaseSources s).bitCounter = s.bitCounter ∧ (releaseSources s).byteCounter = s.byteCounter ∧ (releaseSources s).mem = s.mem
    ∧ (releaseSources s).cur = s.cur ∧ (releaseSources s).nbits = s.nbits ∧ (releaseSources s).highCount = s.highCount
    ∧ (releaseSources s).pollPrev = s.pollPrev ∧ (releaseSources s).success = s.success ∧ (releaseSources s).done = s.done
    ∧ (releaseSources s).cause = s.cause ∧ (releaseSources s).cnt = s.cnt ∧ (releaseSources s).cntRunning = s.cntRunning
    ∧ (releaseSources s).timeoutFlag = s.timeoutFlag ∧ (releaseSources s).armed = s.armed ∧ (releaseSources s).samplePending = s.samplePending
    ∧ (releaseSources s).sampleAt = s.sampleAt ∧ (releaseSources s).gieInhibit = s.gieInhibit ∧ (releaseSources s).suppress = false
    ∧ (releaseSources s).savedEnable = s.savedEnable ∧ (releaseSources s).savedPending = s.savedPending ∧ (releaseSources s).compEnable = s.savedEnable
    ∧ (releaseSources s).compPending = s.savedPending ∧ (releaseSources s).beginReq = s.beginReq ∧ (releaseSources s).runReq = s.runReq
    ∧ (releaseSources s).replySize = s.replySize ∧ (releaseSources s).access = s.access ∧ (releaseSources s).script = s.script
    ∧ (releaseSources s).env = s.env ∧ (releaseSources s).draws = s.draws ∧ (releaseSources s).report = s.report := by
  refine ⟨?_, ?_, ?_, ?_, ?_, ?_, ?_, ?_, ?_, ?_, ?_, ?_, ?_, ?_, ?_, ?_, ?_, ?_, ?_, ?_, ?_, ?_, ?_, ?_, ?_, ?_, ?_, ?_, ?_, ?_, ?_, ?_, ?_, ?_, ?_, ?_, ?_, ?_, ?_⟩ <;> rfl

@[simp] theorem resetTransactionState_fields (s : State) :
    (resetTransactionState s).cfg = s.cfg ∧ (resetTransactionState s).now = s.now ∧ (resetTransactionState s).phase = s.phase
    ∧ (resetTransactionState s).txTick = s.txTick ∧ (resetTransactionState s).cmdLen = s.cmdLen ∧ (resetTransactionState s).replyLen = s.replyLen
    ∧ (resetTransactionState s).t0 = s.t0 ∧ (resetTransactionState s).drv = s.drv ∧ (resetTransactionState s).prevLine = s.prevLine
    ∧ (resetTransactionState s).bitCounter = bitsPerByte ∧ (resetTransactionState s).byteCounter = 0 ∧ (resetTransactionState s).mem = { s.mem with scratch := zeroBuffer scratchCap }
    ∧ (resetTransactionState s).cur = s.cur ∧ (resetTransactionState s).nbits = s.nbits ∧ (resetTransactionState s).highCount = s.highCount
    ∧ (resetTransactionState s).pollPrev = s.pollPrev ∧ (resetTransactionState s).success = s.success ∧ (resetTransactionState s).done = s.done
    ∧ (resetTransactionState s).cause = s.cause ∧ (resetTransactionState s).cnt = s.cnt ∧ (resetTransactionState s).cntRunning = s.cntRunning
    ∧ (resetTransactionState s).timeoutFlag = s.timeoutFlag ∧ (resetTransactionState s).armed = s.armed ∧ (resetTransactionState s).samplePending = false
    ∧ (resetTransactionState s).sampleAt = s.sampleAt ∧ (resetTransactionState s).gieInhibit = s.gieInhibit ∧ (resetTransactionState s).suppress = s.suppress
    ∧ (resetTransactionState s).savedEnable = s.savedEnable ∧ (resetTransactionState s).savedPending = s.savedPending ∧ (resetTransactionState s).compEnable = s.compEnable
    ∧ (resetTransactionState s).compPending = s.compPending ∧ (resetTransactionState s).beginReq = s.beginReq ∧ (resetTransactionState s).runReq = s.runReq
    ∧ (resetTransactionState s).replySize = s.replySize ∧ (resetTransactionState s).access = s.access ∧ (resetTransactionState s).script = s.script
    ∧ (resetTransactionState s).env = s.env ∧ (resetTransactionState s).draws = s.draws ∧ (resetTransactionState s).report = s.report := by
  refine ⟨?_, ?_, ?_, ?_, ?_, ?_, ?_, ?_, ?_, ?_, ?_, ?_, ?_, ?_, ?_, ?_, ?_, ?_, ?_, ?_, ?_, ?_, ?_, ?_, ?_, ?_, ?_, ?_, ?_, ?_, ?_, ?_, ?_, ?_, ?_, ?_, ?_, ?_, ?_⟩ <;> rfl

@[simp] theorem latchOperands_fields (s : State) :
    (latchOperands s).cfg = s.cfg ∧ (latchOperands s).now = s.now ∧ (latchOperands s).phase = s.phase
    ∧ (latchOperands s).txTick = s.txTick ∧ (latchOperands s).cmdLen = s.mem.cmd.size ∧ (latchOperands s).replyLen = s.replySize
    ∧ (latchOperands s).t0 = s.now ∧ (latchOperands s).drv = s.drv ∧ (latchOperands s).prevLine = s.prevLine
    ∧ (latchOperands s).bitCounter = s.bitCounter ∧ (latchOperands s).byteCounter = s.byteCounter ∧ (latchOperands s).mem = s.mem
    ∧ (latchOperands s).cur = s.cur ∧ (latchOperands s).nbits = s.nbits ∧ (latchOperands s).highCount = s.highCount
    ∧ (latchOperands s).pollPrev = s.pollPrev ∧ (latchOperands s).success = s.success ∧ (latchOperands s).done = s.done
    ∧ (latchOperands s).cause = s.cause ∧ (latchOperands s).cnt = s.cnt ∧ (latchOperands s).cntRunning = s.cntRunning
    ∧ (latchOperands s).timeoutFlag = s.timeoutFlag ∧ (latchOperands s).armed = s.armed ∧ (latchOperands s).samplePending = s.samplePending
    ∧ (latchOperands s).sampleAt = s.sampleAt ∧ (latchOperands s).gieInhibit = s.gieInhibit ∧ (latchOperands s).suppress = s.suppress
    ∧ (latchOperands s).savedEnable = s.savedEnable ∧ (latchOperands s).savedPending = s.savedPending ∧ (latchOperands s).compEnable = s.compEnable
    ∧ (latchOperands s).compPending = s.compPending ∧ (latchOperands s).beginReq = s.beginReq ∧ (latchOperands s).runReq = s.runReq
    ∧ (latchOperands s).replySize = s.replySize ∧ (latchOperands s).access = s.access ∧ (latchOperands s).script = s.script
    ∧ (latchOperands s).env = s.env ∧ (latchOperands s).draws = s.draws ∧ (latchOperands s).report = s.report := by
  refine ⟨?_, ?_, ?_, ?_, ?_, ?_, ?_, ?_, ?_, ?_, ?_, ?_, ?_, ?_, ?_, ?_, ?_, ?_, ?_, ?_, ?_, ?_, ?_, ?_, ?_, ?_, ?_, ?_, ?_, ?_, ?_, ?_, ?_, ?_, ?_, ?_, ?_, ?_, ?_⟩ <;> rfl

@[simp] theorem expiryHandler_fields (s : State) :
    (expiryHandler s).cfg = s.cfg ∧ (expiryHandler s).now = s.now ∧ (expiryHandler s).phase = s.phase
    ∧ (expiryHandler s).txTick = s.txTick ∧ (expiryHandler s).cmdLen = s.cmdLen ∧ (expiryHandler s).replyLen = s.replyLen
    ∧ (expiryHandler s).t0 = s.t0 ∧ (expiryHandler s).drv = s.drv ∧ (expiryHandler s).prevLine = s.prevLine
    ∧ (expiryHandler s).bitCounter = s.bitCounter ∧ (expiryHandler s).byteCounter = s.byteCounter ∧ (expiryHandler s).mem = s.mem
    ∧ (expiryHandler s).cur = s.cur ∧ (expiryHandler s).nbits = s.nbits ∧ (expiryHandler s).highCount = s.highCount
    ∧ (expiryHandler s).pollPrev = s.pollPrev ∧ (expiryHandler s).success = s.success ∧ (expiryHandler s).done = s.done
    ∧ (expiryHandler s).cause = s.cause ∧ (expiryHandler s).cnt = s.cnt ∧ (expiryHandler s).cntRunning = false
    ∧ (expiryHandler s).timeoutFlag = true ∧ (expiryHandler s).armed = s.armed ∧ (expiryHandler s).samplePending = s.samplePending
    ∧ (expiryHandler s).sampleAt = s.sampleAt ∧ (expiryHandler s).gieInhibit = s.gieInhibit ∧ (expiryHandler s).suppress = s.suppress
    ∧ (expiryHandler s).savedEnable = s.savedEnable ∧ (expiryHandler s).savedPending = s.savedPending ∧ (expiryHandler s).compEnable = s.compEnable
    ∧ (expiryHandler s).compPending = s.compPending ∧ (expiryHandler s).beginReq = s.beginReq ∧ (expiryHandler s).runReq = s.runReq
    ∧ (expiryHandler s).replySize = s.replySize ∧ (expiryHandler s).access = s.access ∧ (expiryHandler s).script = s.script
    ∧ (expiryHandler s).env = s.env ∧ (expiryHandler s).draws = s.draws ∧ (expiryHandler s).report = s.report := by
  refine ⟨?_, ?_, ?_, ?_, ?_, ?_, ?_, ?_, ?_, ?_, ?_, ?_, ?_, ?_, ?_, ?_, ?_, ?_, ?_, ?_, ?_, ?_, ?_, ?_, ?_, ?_, ?_, ?_, ?_, ?_, ?_, ?_, ?_, ?_, ?_, ?_, ?_, ?_, ?_⟩ <;> rfl

@[simp] theorem enterHandler_fields (s : State) :
    (enterHandler s).cfg = s.cfg ∧ (enterHandler s).now = s.now ∧ (enterHandler s).phase = s.phase
    ∧ (enterHandler s).txTick = s.txTick ∧ (enterHandler s).cmdLen = s.cmdLen ∧ (enterHandler s).replyLen = s.replyLen
    ∧ (enterHandler s).t0 = s.t0 ∧ (enterHandler s).drv = s.drv ∧ (enterHandler s).prevLine = s.prevLine
    ∧ (enterHandler s).bitCounter = s.bitCounter ∧ (enterHandler s).byteCounter = s.byteCounter ∧ (enterHandler s).mem = s.mem
    ∧ (enterHandler s).cur = s.cur ∧ (enterHandler s).nbits = s.nbits ∧ (enterHandler s).highCount = s.highCount
    ∧ (enterHandler s).pollPrev = s.pollPrev ∧ (enterHandler s).success = s.success ∧ (enterHandler s).done = s.done
    ∧ (enterHandler s).cause = s.cause ∧ (enterHandler s).cnt = s.cnt ∧ (enterHandler s).cntRunning = s.cntRunning
    ∧ (enterHandler s).timeoutFlag = s.timeoutFlag ∧ (enterHandler s).armed = s.armed ∧ (enterHandler s).samplePending = true
    ∧ (enterHandler s).sampleAt = s.now + s.cfg.sampleDelayTicks ∧ (enterHandler s).gieInhibit = s.gieInhibit ∧ (enterHandler s).suppress = s.suppress
    ∧ (enterHandler s).savedEnable = s.savedEnable ∧ (enterHandler s).savedPending = s.savedPending ∧ (enterHandler s).compEnable = s.compEnable
    ∧ (enterHandler s).compPending = s.compPending ∧ (enterHandler s).beginReq = s.beginReq ∧ (enterHandler s).runReq = s.runReq
    ∧ (enterHandler s).replySize = s.replySize ∧ (enterHandler s).access = s.access ∧ (enterHandler s).script = s.script
    ∧ (enterHandler s).env = s.env ∧ (enterHandler s).draws = s.draws ∧ (enterHandler s).report = s.report := by
  refine ⟨?_, ?_, ?_, ?_, ?_, ?_, ?_, ?_, ?_, ?_, ?_, ?_, ?_, ?_, ?_, ?_, ?_, ?_, ?_, ?_, ?_, ?_, ?_, ?_, ?_, ?_, ?_, ?_, ?_, ?_, ?_, ?_, ?_, ?_, ?_, ?_, ?_, ?_, ?_⟩ <;> rfl

@[simp] theorem disarm_fields (s : State) :
    (disarm s).cfg = s.cfg ∧ (disarm s).now = s.now ∧ (disarm s).phase = s.phase
    ∧ (disarm s).txTick = s.txTick ∧ (disarm s).cmdLen = s.cmdLen ∧ (disarm s).replyLen = s.replyLen
    ∧ (disarm s).t0 = s.t0 ∧ (disarm s).drv = s.drv ∧ (disarm s).prevLine = s.prevLine
    ∧ (disarm s).bitCounter = s.bitCounter ∧ (disarm s).byteCounter = s.byteCounter ∧ (disarm s).mem = s.mem
    ∧ (disarm s).cur = s.cur ∧ (disarm s).nbits = s.nbits ∧ (disarm s).highCount = s.highCount
    ∧ (disarm s).pollPrev = s.pollPrev ∧ (disarm s).success = s.success ∧ (disarm s).done = s.done
    ∧ (disarm s).cause = s.cause ∧ (disarm s).cnt = s.cnt ∧ (disarm s).cntRunning = false
    ∧ (disarm s).timeoutFlag = s.timeoutFlag ∧ (disarm s).armed = false ∧ (disarm s).samplePending = false
    ∧ (disarm s).sampleAt = s.sampleAt ∧ (disarm s).gieInhibit = s.gieInhibit ∧ (disarm s).suppress = s.suppress
    ∧ (disarm s).savedEnable = s.savedEnable ∧ (disarm s).savedPending = s.savedPending ∧ (disarm s).compEnable = s.compEnable
    ∧ (disarm s).compPending = s.compPending ∧ (disarm s).beginReq = s.beginReq ∧ (disarm s).runReq = s.runReq
    ∧ (disarm s).replySize = s.replySize ∧ (disarm s).access = s.access ∧ (disarm s).script = s.script
    ∧ (disarm s).env = s.env ∧ (disarm s).draws = s.draws ∧ (disarm s).report = s.report := by
  refine ⟨?_, ?_, ?_, ?_, ?_, ?_, ?_, ?_, ?_, ?_, ?_, ?_, ?_, ?_, ?_, ?_, ?_, ?_, ?_, ?_, ?_, ?_, ?_, ?_, ?_, ?_, ?_, ?_, ?_, ?_, ?_, ?_, ?_, ?_, ?_, ?_, ?_, ?_, ?_⟩ <;> rfl

@[simp] theorem enterWait_fields (s : State) :
    (enterWait s).cfg = s.cfg ∧ (enterWait s).now = s.now ∧ (enterWait s).phase = .wait
    ∧ (enterWait s).txTick = s.txTick ∧ (enterWait s).cmdLen = s.cmdLen ∧ (enterWait s).replyLen = s.replyLen
    ∧ (enterWait s).t0 = s.t0 ∧ (enterWait s).drv = .released ∧ (enterWait s).prevLine = s.prevLine
    ∧ (enterWait s).bitCounter = s.bitCounter ∧ (enterWait s).byteCounter = s.byteCounter ∧ (enterWait s).mem = s.mem
    ∧ (enterWait s).cur = s.cur ∧ (enterWait s).nbits = s.nbits ∧ (enterWait s).highCount = s.highCount
    ∧ (enterWait s).pollPrev = s.pollPrev ∧ (enterWait s).success = s.success ∧ (enterWait s).done = s.done
    ∧ (enterWait s).cause = s.cause ∧ (enterWait s).cnt = s.cnt ∧ (enterWait s).cntRunning = s.cntRunning
    ∧ (enterWait s).timeoutFlag = s.timeoutFlag ∧ (enterWait s).armed = true ∧ (enterWait s).samplePending = s.samplePending
    ∧ (enterWait s).sampleAt = s.sampleAt ∧ (enterWait s).gieInhibit = false ∧ (enterWait s).suppress = s.suppress
    ∧ (enterWait s).savedEnable = s.savedEnable ∧ (enterWait s).savedPending = s.savedPending ∧ (enterWait s).compEnable = s.compEnable
    ∧ (enterWait s).compPending = s.compPending ∧ (enterWait s).beginReq = s.beginReq ∧ (enterWait s).runReq = s.runReq
    ∧ (enterWait s).replySize = s.replySize ∧ (enterWait s).access = s.access ∧ (enterWait s).script = s.script
    ∧ (enterWait s).env = s.env ∧ (enterWait s).draws = s.draws ∧ (enterWait s).report = s.report := by
  refine ⟨?_, ?_, ?_, ?_, ?_, ?_, ?_, ?_, ?_, ?_, ?_, ?_, ?_, ?_, ?_, ?_, ?_, ?_, ?_, ?_, ?_, ?_, ?_, ?_, ?_, ?_, ?_, ?_, ?_, ?_, ?_, ?_, ?_, ?_, ?_, ?_, ?_, ?_, ?_⟩ <;> rfl

@[simp] theorem enterFirstEdge_fields (s : State) :
    (enterFirstEdge s).cfg = s.cfg ∧ (enterFirstEdge s).now = s.now ∧ (enterFirstEdge s).phase = .firstEdge
    ∧ (enterFirstEdge s).txTick = s.txTick ∧ (enterFirstEdge s).cmdLen = s.cmdLen ∧ (enterFirstEdge s).replyLen = s.replyLen
    ∧ (enterFirstEdge s).t0 = s.t0 ∧ (enterFirstEdge s).drv = .released ∧ (enterFirstEdge s).prevLine = s.prevLine
    ∧ (enterFirstEdge s).bitCounter = s.bitCounter ∧ (enterFirstEdge s).byteCounter = s.byteCounter ∧ (enterFirstEdge s).mem = s.mem
    ∧ (enterFirstEdge s).cur = s.cur ∧ (enterFirstEdge s).nbits = s.nbits ∧ (enterFirstEdge s).highCount = s.highCount
    ∧ (enterFirstEdge s).pollPrev = s.pollPrev ∧ (enterFirstEdge s).success = s.success ∧ (enterFirstEdge s).done = s.done
    ∧ (enterFirstEdge s).cause = s.cause ∧ (enterFirstEdge s).cnt = s.cnt ∧ (enterFirstEdge s).cntRunning = s.cntRunning
    ∧ (enterFirstEdge s).timeoutFlag = s.timeoutFlag ∧ (enterFirstEdge s).armed = s.armed ∧ (enterFirstEdge s).samplePending = s.samplePending
    ∧ (enterFirstEdge s).sampleAt = s.sampleAt ∧ (enterFirstEdge s).gieInhibit = s.gieInhibit ∧ (enterFirstEdge s).suppress = s.suppress
    ∧ (enterFirstEdge s).savedEnable = s.savedEnable ∧ (enterFirstEdge s).savedPending = s.savedPending ∧ (enterFirstEdge s).compEnable = s.compEnable
    ∧ (enterFirstEdge s).compPending = s.compPending ∧ (enterFirstEdge s).beginReq = s.beginReq ∧ (enterFirstEdge s).runReq = s.runReq
    ∧ (enterFirstEdge s).replySize = s.replySize ∧ (enterFirstEdge s).access = s.access ∧ (enterFirstEdge s).script = s.script
    ∧ (enterFirstEdge s).env = s.env ∧ (enterFirstEdge s).draws = s.draws ∧ (enterFirstEdge s).report = s.report := by
  refine ⟨?_, ?_, ?_, ?_, ?_, ?_, ?_, ?_, ?_, ?_, ?_, ?_, ?_, ?_, ?_, ?_, ?_, ?_, ?_, ?_, ?_, ?_, ?_, ?_, ?_, ?_, ?_, ?_, ?_, ?_, ?_, ?_, ?_, ?_, ?_, ?_, ?_, ?_, ?_⟩ <;> rfl

@[simp] theorem finishPolling_fields (s : State) :
    (finishPolling s).cfg = s.cfg ∧ (finishPolling s).now = s.now ∧ (finishPolling s).phase = .idle
    ∧ (finishPolling s).txTick = s.txTick ∧ (finishPolling s).cmdLen = s.cmdLen ∧ (finishPolling s).replyLen = s.replyLen
    ∧ (finishPolling s).t0 = s.t0 ∧ (finishPolling s).drv = s.drv ∧ (finishPolling s).prevLine = s.prevLine
    ∧ (finishPolling s).bitCounter = s.bitCounter ∧ (finishPolling s).byteCounter = s.byteCounter ∧ (finishPolling s).mem = s.mem
    ∧ (finishPolling s).cur = s.cur ∧ (finishPolling s).nbits = s.nbits ∧ (finishPolling s).highCount = s.highCount
    ∧ (finishPolling s).pollPrev = s.pollPrev ∧ (finishPolling s).success = true ∧ (finishPolling s).done = true
    ∧ (finishPolling s).cause = none ∧ (finishPolling s).cnt = s.cnt ∧ (finishPolling s).cntRunning = s.cntRunning
    ∧ (finishPolling s).timeoutFlag = s.timeoutFlag ∧ (finishPolling s).armed = s.armed ∧ (finishPolling s).samplePending = s.samplePending
    ∧ (finishPolling s).sampleAt = s.sampleAt ∧ (finishPolling s).gieInhibit = false ∧ (finishPolling s).suppress = s.suppress
    ∧ (finishPolling s).savedEnable = s.savedEnable ∧ (finishPolling s).savedPending = s.savedPending ∧ (finishPolling s).compEnable = s.compEnable
    ∧ (finishPolling s).compPending = s.compPending ∧ (finishPolling s).beginReq = s.beginReq ∧ (finishPolling s).runReq = s.runReq
    ∧ (finishPolling s).replySize = s.replySize ∧ (finishPolling s).access = s.access ∧ (finishPolling s).script = s.script
    ∧ (finishPolling s).env = s.env ∧ (finishPolling s).draws = s.draws ∧ (finishPolling s).report = s.report := by
  refine ⟨?_, ?_, ?_, ?_, ?_, ?_, ?_, ?_, ?_, ?_, ?_, ?_, ?_, ?_, ?_, ?_, ?_, ?_, ?_, ?_, ?_, ?_, ?_, ?_, ?_, ?_, ?_, ?_, ?_, ?_, ?_, ?_, ?_, ?_, ?_, ?_, ?_, ?_, ?_⟩ <;> rfl

@[simp] theorem emitSymbol_fields (sym : Symbol) (j : Nat) (s : State) :
    (emitSymbol sym j s).cfg = s.cfg ∧ (emitSymbol sym j s).now = s.now ∧ (emitSymbol sym j s).phase = s.phase
    ∧ (emitSymbol sym j s).txTick = j ∧ (emitSymbol sym j s).cmdLen = s.cmdLen ∧ (emitSymbol sym j s).replyLen = s.replyLen
    ∧ (emitSymbol sym j s).t0 = s.t0 ∧ (emitSymbol sym j s).drv = symbolDrive s.cfg sym (frameOffset s.cfg s.cmdLen j) ∧ (emitSymbol sym j s).prevLine = s.prevLine
    ∧ (emitSymbol sym j s).bitCounter = s.bitCounter ∧ (emitSymbol sym j s).byteCounter = s.byteCounter ∧ (emitSymbol sym j s).mem = s.mem
    ∧ (emitSymbol sym j s).cur = s.cur ∧ (emitSymbol sym j s).nbits = s.nbits ∧ (emitSymbol sym j s).highCount = s.highCount
    ∧ (emitSymbol sym j s).pollPrev = s.pollPrev ∧ (emitSymbol sym j s).success = s.success ∧ (emitSymbol sym j s).done = s.done
    ∧ (emitSymbol sym j s).cause = s.cause ∧ (emitSymbol sym j s).cnt = s.cnt ∧ (emitSymbol sym j s).cntRunning = s.cntRunning
    ∧ (emitSymbol sym j s).timeoutFlag = s.timeoutFlag ∧ (emitSymbol sym j s).armed = s.armed ∧ (emitSymbol sym j s).samplePending = s.samplePending
    ∧ (emitSymbol sym j s).sampleAt = s.sampleAt ∧ (emitSymbol sym j s).gieInhibit = s.gieInhibit ∧ (emitSymbol sym j s).suppress = s.suppress
    ∧ (emitSymbol sym j s).savedEnable = s.savedEnable ∧ (emitSymbol sym j s).savedPending = s.savedPending ∧ (emitSymbol sym j s).compEnable = s.compEnable
    ∧ (emitSymbol sym j s).compPending = s.compPending ∧ (emitSymbol sym j s).beginReq = s.beginReq ∧ (emitSymbol sym j s).runReq = s.runReq
    ∧ (emitSymbol sym j s).replySize = s.replySize ∧ (emitSymbol sym j s).access = s.access ∧ (emitSymbol sym j s).script = s.script
    ∧ (emitSymbol sym j s).env = s.env ∧ (emitSymbol sym j s).draws = s.draws ∧ (emitSymbol sym j s).report = s.report := by
  refine ⟨?_, ?_, ?_, ?_, ?_, ?_, ?_, ?_, ?_, ?_, ?_, ?_, ?_, ?_, ?_, ?_, ?_, ?_, ?_, ?_, ?_, ?_, ?_, ?_, ?_, ?_, ?_, ?_, ?_, ?_, ?_, ?_, ?_, ?_, ?_, ?_, ?_, ?_, ?_⟩ <;> rfl

@[simp] theorem startFrame_fields (bytes : List Byte) (s : State) :
    (startFrame bytes s).cfg = s.cfg ∧ (startFrame bytes s).now = s.now ∧ (startFrame bytes s).phase = .send
    ∧ (startFrame bytes s).txTick = 0 ∧ (startFrame bytes s).cmdLen = bytes.length ∧ (startFrame bytes s).replyLen = s.replyLen
    ∧ (startFrame bytes s).t0 = s.t0 ∧ (startFrame bytes s).drv = symbolDrive s.cfg (frameSymbolAt s.cfg bytes 0) (frameOffset s.cfg bytes.length 0) ∧ (startFrame bytes s).prevLine = s.prevLine
    ∧ (startFrame bytes s).bitCounter = s.bitCounter ∧ (startFrame bytes s).byteCounter = s.byteCounter ∧ (startFrame bytes s).mem = s.mem
    ∧ (startFrame bytes s).cur = s.cur ∧ (startFrame bytes s).nbits = s.nbits ∧ (startFrame bytes s).highCount = s.highCount
    ∧ (startFrame bytes s).pollPrev = s.pollPrev ∧ (startFrame bytes s).success = s.success ∧ (startFrame bytes s).done = s.done
    ∧ (startFrame bytes s).cause = s.cause ∧ (startFrame bytes s).cnt = s.cnt ∧ (startFrame bytes s).cntRunning = s.cntRunning
    ∧ (startFrame bytes s).timeoutFlag = s.timeoutFlag ∧ (startFrame bytes s).armed = s.armed ∧ (startFrame bytes s).samplePending = s.samplePending
    ∧ (startFrame bytes s).sampleAt = s.sampleAt ∧ (startFrame bytes s).gieInhibit = true ∧ (startFrame bytes s).suppress = s.suppress
    ∧ (startFrame bytes s).savedEnable = s.savedEnable ∧ (startFrame bytes s).savedPending = s.savedPending ∧ (startFrame bytes s).compEnable = s.compEnable
    ∧ (startFrame bytes s).compPending = s.compPending ∧ (startFrame bytes s).beginReq = s.beginReq ∧ (startFrame bytes s).runReq = s.runReq
    ∧ (startFrame bytes s).replySize = s.replySize ∧ (startFrame bytes s).access = s.access ∧ (startFrame bytes s).script = s.script
    ∧ (startFrame bytes s).env = s.env ∧ (startFrame bytes s).draws = s.draws ∧ (startFrame bytes s).report = s.report := by
  refine ⟨?_, ?_, ?_, ?_, ?_, ?_, ?_, ?_, ?_, ?_, ?_, ?_, ?_, ?_, ?_, ?_, ?_, ?_, ?_, ?_, ?_, ?_, ?_, ?_, ?_, ?_, ?_, ?_, ?_, ?_, ?_, ?_, ?_, ?_, ?_, ?_, ?_, ?_, ?_⟩ <;> rfl

@[simp] theorem endTick_fields (s : State) :
    (endTick s).cfg = s.cfg ∧ (endTick s).now = s.now + 1 ∧ (endTick s).phase = s.phase
    ∧ (endTick s).txTick = s.txTick ∧ (endTick s).cmdLen = s.cmdLen ∧ (endTick s).replyLen = s.replyLen
    ∧ (endTick s).t0 = s.t0 ∧ (endTick s).drv = s.drv ∧ (endTick s).prevLine = lineLevel s
    ∧ (endTick s).bitCounter = s.bitCounter ∧ (endTick s).byteCounter = s.byteCounter ∧ (endTick s).mem = s.mem
    ∧ (endTick s).cur = s.cur ∧ (endTick s).nbits = s.nbits ∧ (endTick s).highCount = s.highCount
    ∧ (endTick s).pollPrev = s.pollPrev ∧ (endTick s).success = s.success ∧ (endTick s).done = s.done
    ∧ (endTick s).cause = s.cause ∧ (endTick s).cnt = s.cnt ∧ (endTick s).cntRunning = s.cntRunning
    ∧ (endTick s).timeoutFlag = s.timeoutFlag ∧ (endTick s).armed = s.armed ∧ (endTick s).samplePending = s.samplePending
    ∧ (endTick s).sampleAt = s.sampleAt ∧ (endTick s).gieInhibit = s.gieInhibit ∧ (endTick s).suppress = s.suppress
    ∧ (endTick s).savedEnable = s.savedEnable ∧ (endTick s).savedPending = s.savedPending ∧ (endTick s).compEnable = s.compEnable
    ∧ (endTick s).compPending = s.compPending ∧ (endTick s).beginReq = false ∧ (endTick s).runReq = false
    ∧ (endTick s).replySize = s.replySize ∧ (endTick s).access = none ∧ (endTick s).script = s.script
    ∧ (endTick s).env = s.env.tail ∧ (endTick s).draws = s.draws ∧ (endTick s).report = s.report := by
  refine ⟨?_, ?_, ?_, ?_, ?_, ?_, ?_, ?_, ?_, ?_, ?_, ?_, ?_, ?_, ?_, ?_, ?_, ?_, ?_, ?_, ?_, ?_, ?_, ?_, ?_, ?_, ?_, ?_, ?_, ?_, ?_, ?_, ?_, ?_, ?_, ?_, ?_, ?_, ?_⟩ <;> rfl

@[simp] theorem startTimer_frame (s : State) :
    (startTimer s).cfg = s.cfg ∧ (startTimer s).now = s.now ∧ (startTimer s).phase = s.phase
    ∧ (startTimer s).txTick = s.txTick ∧ (startTimer s).cmdLen = s.cmdLen ∧ (startTimer s).replyLen = s.replyLen
    ∧ (startTimer s).t0 = s.t0 ∧ (startTimer s).drv = s.drv ∧ (startTimer s).prevLine = s.prevLine
    ∧ (startTimer s).bitCounter = s.bitCounter ∧ (startTimer s).byteCounter = s.byteCounter ∧ (startTimer s).mem = s.mem
    ∧ (startTimer s).cur = s.cur ∧ (startTimer s).nbits = s.nbits ∧ (startTimer s).highCount = s.highCount
    ∧ (startTimer s).pollPrev = s.pollPrev ∧ (startTimer s).success = s.success ∧ (startTimer s).done = s.done
    ∧ (startTimer s).cause = s.cause ∧ (startTimer s).armed = s.armed ∧ (startTimer s).samplePending = s.samplePending
    ∧ (startTimer s).sampleAt = s.sampleAt ∧ (startTimer s).gieInhibit = s.gieInhibit ∧ (startTimer s).suppress = s.suppress
    ∧ (startTimer s).savedEnable = s.savedEnable ∧ (startTimer s).savedPending = s.savedPending ∧ (startTimer s).compEnable = s.compEnable
    ∧ (startTimer s).compPending = s.compPending ∧ (startTimer s).beginReq = s.beginReq ∧ (startTimer s).runReq = s.runReq
    ∧ (startTimer s).replySize = s.replySize ∧ (startTimer s).access = s.access ∧ (startTimer s).script = s.script
    ∧ (startTimer s).env = s.env ∧ (startTimer s).draws = s.draws ∧ (startTimer s).report = s.report := by
  unfold startTimer; split <;> simp

@[simp] theorem countdownTick_frame (s : State) :
    (countdownTick s).cfg = s.cfg ∧ (countdownTick s).now = s.now ∧ (countdownTick s).phase = s.phase
    ∧ (countdownTick s).txTick = s.txTick ∧ (countdownTick s).cmdLen = s.cmdLen ∧ (countdownTick s).replyLen = s.replyLen
    ∧ (countdownTick s).t0 = s.t0 ∧ (countdownTick s).drv = s.drv ∧ (countdownTick s).prevLine = s.prevLine
    ∧ (countdownTick s).bitCounter = s.bitCounter ∧ (countdownTick s).byteCounter = s.byteCounter ∧ (countdownTick s).mem = s.mem
    ∧ (countdownTick s).cur = s.cur ∧ (countdownTick s).nbits = s.nbits ∧ (countdownTick s).highCount = s.highCount
    ∧ (countdownTick s).pollPrev = s.pollPrev ∧ (countdownTick s).success = s.success ∧ (countdownTick s).done = s.done
    ∧ (countdownTick s).cause = s.cause ∧ (countdownTick s).armed = s.armed ∧ (countdownTick s).samplePending = s.samplePending
    ∧ (countdownTick s).sampleAt = s.sampleAt ∧ (countdownTick s).gieInhibit = s.gieInhibit ∧ (countdownTick s).suppress = s.suppress
    ∧ (countdownTick s).savedEnable = s.savedEnable ∧ (countdownTick s).savedPending = s.savedPending ∧ (countdownTick s).compEnable = s.compEnable
    ∧ (countdownTick s).compPending = s.compPending ∧ (countdownTick s).beginReq = s.beginReq ∧ (countdownTick s).runReq = s.runReq
    ∧ (countdownTick s).replySize = s.replySize ∧ (countdownTick s).access = s.access ∧ (countdownTick s).script = s.script
    ∧ (countdownTick s).env = s.env ∧ (countdownTick s).draws = s.draws ∧ (countdownTick s).report = s.report := by
  unfold countdownTick; split <;> [(dsimp only; split <;> simp); simp]

@[simp] theorem sampleSources_frame (s : State) :
    (sampleSources s).cfg = s.cfg ∧ (sampleSources s).now = s.now ∧ (sampleSources s).phase = s.phase
    ∧ (sampleSources s).txTick = s.txTick ∧ (sampleSources s).cmdLen = s.cmdLen ∧ (sampleSources s).replyLen = s.replyLen
    ∧ (sampleSources s).t0 = s.t0 ∧ (sampleSources s).drv = s.drv ∧ (sampleSources s).prevLine = s.prevLine
    ∧ (sampleSources s).bitCounter = s.bitCounter ∧ (sampleSources s).byteCounter = s.byteCounter ∧ (sampleSources s).mem = s.mem
    ∧ (sampleSources s).cur = s.cur ∧ (sampleSources s).nbits = s.nbits ∧ (sampleSources s).highCount = s.highCount
    ∧ (sampleSources s).pollPrev = s.pollPrev ∧ (sampleSources s).success = s.success ∧ (sampleSources s).done = s.done
    ∧ (sampleSources s).cause = s.cause ∧ (sampleSources s).cnt = s.cnt ∧ (sampleSources s).cntRunning = s.cntRunning
    ∧ (sampleSources s).timeoutFlag = s.timeoutFlag ∧ (sampleSources s).armed = s.armed ∧ (sampleSources s).samplePending = s.samplePending
    ∧ (sampleSources s).sampleAt = s.sampleAt ∧ (sampleSources s).gieInhibit = s.gieInhibit ∧ (sampleSources s).suppress = s.suppress
    ∧ (sampleSources s).savedEnable = s.savedEnable ∧ (sampleSources s).savedPending = s.savedPending ∧ (sampleSources s).beginReq = s.beginReq
    ∧ (sampleSources s).runReq = s.runReq ∧ (sampleSources s).replySize = s.replySize ∧ (sampleSources s).access = s.access
    ∧ (sampleSources s).script = s.script ∧ (sampleSources s).env = s.env ∧ (sampleSources s).draws = s.draws
    ∧ (sampleSources s).report = s.report := by
  unfold sampleSources; split <;> [(split <;> simp); simp]

@[simp] theorem returnReply_frame (s : State) :
    (returnReply s).cfg = s.cfg ∧ (returnReply s).now = s.now ∧ (returnReply s).phase = s.phase
    ∧ (returnReply s).txTick = s.txTick ∧ (returnReply s).cmdLen = s.cmdLen ∧ (returnReply s).replyLen = s.replyLen
    ∧ (returnReply s).t0 = s.t0 ∧ (returnReply s).drv = s.drv ∧ (returnReply s).prevLine = s.prevLine
    ∧ (returnReply s).bitCounter = s.bitCounter ∧ (returnReply s).byteCounter = s.byteCounter ∧ (returnReply s).mem = s.mem
    ∧ (returnReply s).cur = s.cur ∧ (returnReply s).nbits = s.nbits ∧ (returnReply s).highCount = s.highCount
    ∧ (returnReply s).pollPrev = s.pollPrev ∧ (returnReply s).cnt = s.cnt ∧ (returnReply s).cntRunning = s.cntRunning
    ∧ (returnReply s).timeoutFlag = s.timeoutFlag ∧ (returnReply s).armed = s.armed ∧ (returnReply s).samplePending = s.samplePending
    ∧ (returnReply s).sampleAt = s.sampleAt ∧ (returnReply s).gieInhibit = s.gieInhibit ∧ (returnReply s).suppress = s.suppress
    ∧ (returnReply s).savedEnable = s.savedEnable ∧ (returnReply s).savedPending = s.savedPending ∧ (returnReply s).compEnable = s.compEnable
    ∧ (returnReply s).compPending = s.compPending ∧ (returnReply s).beginReq = s.beginReq ∧ (returnReply s).runReq = s.runReq
    ∧ (returnReply s).replySize = s.replySize ∧ (returnReply s).access = s.access ∧ (returnReply s).script = s.script
    ∧ (returnReply s).env = s.env ∧ (returnReply s).draws = s.draws ∧ (returnReply s).report = s.report := by
  unfold returnReply; split <;> simp

@[simp] theorem prepareDecoder_frame (s : State) :
    (prepareDecoder s).cfg = s.cfg ∧ (prepareDecoder s).now = s.now ∧ (prepareDecoder s).phase = s.phase
    ∧ (prepareDecoder s).txTick = s.txTick ∧ (prepareDecoder s).cmdLen = s.cmdLen ∧ (prepareDecoder s).replyLen = s.replyLen
    ∧ (prepareDecoder s).t0 = s.t0 ∧ (prepareDecoder s).drv = s.drv ∧ (prepareDecoder s).prevLine = s.prevLine
    ∧ (prepareDecoder s).cur = s.cur ∧ (prepareDecoder s).nbits = s.nbits ∧ (prepareDecoder s).highCount = s.highCount
    ∧ (prepareDecoder s).pollPrev = s.pollPrev ∧ (prepareDecoder s).success = s.success ∧ (prepareDecoder s).done = s.done
    ∧ (prepareDecoder s).cause = s.cause ∧ (prepareDecoder s).armed = s.armed ∧ (prepareDecoder s).sampleAt = s.sampleAt
    ∧ (prepareDecoder s).gieInhibit = s.gieInhibit ∧ (prepareDecoder s).compPending = s.compPending ∧ (prepareDecoder s).beginReq = s.beginReq
    ∧ (prepareDecoder s).runReq = s.runReq ∧ (prepareDecoder s).replySize = s.replySize ∧ (prepareDecoder s).access = s.access
    ∧ (prepareDecoder s).script = s.script ∧ (prepareDecoder s).env = s.env ∧ (prepareDecoder s).draws = s.draws
    ∧ (prepareDecoder s).report = s.report := by
  unfold prepareDecoder; split <;> simp

/-- The host's next line touches the ports, its own two buffers and its script. -/
@[simp] theorem presentLine_frame (lines : List HostLine) (s : State) :
    (presentLine s lines).cfg = s.cfg ∧ (presentLine s lines).now = s.now ∧ (presentLine s lines).phase = s.phase
    ∧ (presentLine s lines).txTick = s.txTick ∧ (presentLine s lines).cmdLen = s.cmdLen ∧ (presentLine s lines).replyLen = s.replyLen
    ∧ (presentLine s lines).t0 = s.t0 ∧ (presentLine s lines).drv = s.drv ∧ (presentLine s lines).prevLine = s.prevLine
    ∧ (presentLine s lines).bitCounter = s.bitCounter ∧ (presentLine s lines).byteCounter = s.byteCounter ∧ (presentLine s lines).cur = s.cur
    ∧ (presentLine s lines).nbits = s.nbits ∧ (presentLine s lines).highCount = s.highCount ∧ (presentLine s lines).pollPrev = s.pollPrev
    ∧ (presentLine s lines).success = s.success ∧ (presentLine s lines).done = s.done ∧ (presentLine s lines).cause = s.cause
    ∧ (presentLine s lines).cnt = s.cnt ∧ (presentLine s lines).cntRunning = s.cntRunning ∧ (presentLine s lines).timeoutFlag = s.timeoutFlag
    ∧ (presentLine s lines).armed = s.armed ∧ (presentLine s lines).samplePending = s.samplePending ∧ (presentLine s lines).sampleAt = s.sampleAt
    ∧ (presentLine s lines).gieInhibit = s.gieInhibit ∧ (presentLine s lines).suppress = s.suppress ∧ (presentLine s lines).savedEnable = s.savedEnable
    ∧ (presentLine s lines).savedPending = s.savedPending ∧ (presentLine s lines).compEnable = s.compEnable ∧ (presentLine s lines).compPending = s.compPending
    ∧ (presentLine s lines).env = s.env ∧ (presentLine s lines).draws = s.draws ∧ (presentLine s lines).report = s.report := by
  induction lines with
  | nil => simp [presentLine]
  | cons line rest ih =>
    match line with
    | .idle 0 => simpa [presentLine] using ih
    | .idle (k + 1) => simp [presentLine]
    | .begin => simp [presentLine]
    | .run bytes buffer n => simp [presentLine]
    | .access a => simp [presentLine]

/-- The scratch is no buffer of the host's. -/
@[simp] theorem presentLine_scratch (lines : List HostLine) (s : State) :
    (presentLine s lines).mem.scratch = s.mem.scratch := by
  induction lines with
  | nil => simp [presentLine]
  | cons line rest ih =>
    match line with
    | .idle 0 => simpa [presentLine] using ih
    | .idle (k + 1) => simp [presentLine]
    | .begin => simp [presentLine]
    | .run bytes buffer n => simp [presentLine]
    | .access a => simp [presentLine]

@[simp] theorem presentHost_frame (s : State) :
    (presentHost s).cfg = s.cfg ∧ (presentHost s).now = s.now ∧ (presentHost s).phase = s.phase
    ∧ (presentHost s).txTick = s.txTick ∧ (presentHost s).cmdLen = s.cmdLen ∧ (presentHost s).replyLen = s.replyLen
    ∧ (presentHost s).t0 = s.t0 ∧ (presentHost s).drv = s.drv ∧ (presentHost s).prevLine = s.prevLine
    ∧ (presentHost s).bitCounter = s.bitCounter ∧ (presentHost s).byteCounter = s.byteCounter ∧ (presentHost s).cur = s.cur
    ∧ (presentHost s).nbits = s.nbits ∧ (presentHost s).highCount = s.highCount ∧ (presentHost s).pollPrev = s.pollPrev
    ∧ (presentHost s).success = s.success ∧ (presentHost s).done = s.done ∧ (presentHost s).cause = s.cause
    ∧ (presentHost s).cnt = s.cnt ∧ (presentHost s).cntRunning = s.cntRunning ∧ (presentHost s).timeoutFlag = s.timeoutFlag
    ∧ (presentHost s).armed = s.armed ∧ (presentHost s).samplePending = s.samplePending ∧ (presentHost s).sampleAt = s.sampleAt
    ∧ (presentHost s).gieInhibit = s.gieInhibit ∧ (presentHost s).suppress = s.suppress ∧ (presentHost s).savedEnable = s.savedEnable
    ∧ (presentHost s).savedPending = s.savedPending ∧ (presentHost s).compEnable = s.compEnable ∧ (presentHost s).compPending = s.compPending
    ∧ (presentHost s).env = s.env ∧ (presentHost s).draws = s.draws ∧ (presentHost s).report = s.report := by
  unfold presentHost; split <;> simp

@[simp] theorem presentHost_scratch (s : State) : (presentHost s).mem.scratch = s.mem.scratch := by
  unfold presentHost; split <;> simp

/-- A host that is blocked, or already stands on the ports, presents nothing. -/
theorem presentHost_eq_self {s : State} (h : busy s = true ∨ requestPresent s = true) : presentHost s = s := by
  simp [presentHost, h]

@[simp] theorem beginTick_frame (s : State) :
    (beginTick s).cfg = s.cfg ∧ (beginTick s).now = s.now ∧ (beginTick s).phase = s.phase
    ∧ (beginTick s).txTick = s.txTick ∧ (beginTick s).cmdLen = s.cmdLen ∧ (beginTick s).replyLen = s.replyLen
    ∧ (beginTick s).t0 = s.t0 ∧ (beginTick s).drv = s.drv ∧ (beginTick s).prevLine = s.prevLine
    ∧ (beginTick s).bitCounter = s.bitCounter ∧ (beginTick s).byteCounter = s.byteCounter ∧ (beginTick s).cur = s.cur
    ∧ (beginTick s).nbits = s.nbits ∧ (beginTick s).highCount = s.highCount ∧ (beginTick s).pollPrev = s.pollPrev
    ∧ (beginTick s).success = s.success ∧ (beginTick s).cause = s.cause ∧ (beginTick s).cnt = s.cnt
    ∧ (beginTick s).cntRunning = s.cntRunning ∧ (beginTick s).timeoutFlag = s.timeoutFlag ∧ (beginTick s).armed = s.armed
    ∧ (beginTick s).samplePending = s.samplePending ∧ (beginTick s).sampleAt = s.sampleAt ∧ (beginTick s).gieInhibit = s.gieInhibit
    ∧ (beginTick s).suppress = s.suppress ∧ (beginTick s).savedEnable = s.savedEnable ∧ (beginTick s).savedPending = s.savedPending
    ∧ (beginTick s).env = s.env ∧ (beginTick s).draws = s.draws ∧ (beginTick s).report = s.report := by
  simp [beginTick]

/-- `done` is a pulse of one tick (R27). -/
@[simp] theorem beginTick_done (s : State) : (beginTick s).done = false := by
  simp [beginTick]

@[simp] theorem beginTick_scratch (s : State) : (beginTick s).mem.scratch = s.mem.scratch := by
  simp [beginTick]

/-- What a tick of reset leaves: the values R29 gives, and everything that is not the engine's. -/
theorem rstTick_fields (s : State) :
    (rstTick s).phase = .uninit ∧ (rstTick s).drv = .released ∧ (rstTick s).armed = false
    ∧ (rstTick s).samplePending = false ∧ (rstTick s).gieInhibit = false ∧ (rstTick s).suppress = false
    ∧ (rstTick s).cntRunning = false ∧ (rstTick s).timeoutFlag = false ∧ (rstTick s).success = false
    ∧ (rstTick s).done = false ∧ (rstTick s).cause = none ∧ (rstTick s).now = s.now + 1
    ∧ (rstTick s).env = s.env.tail ∧ (rstTick s).mem.scratch = freeScratch s.draws
    ∧ (rstTick s).cfg = s.cfg ∧ (rstTick s).mem.cmd = s.mem.cmd ∧ (rstTick s).mem.reply = s.mem.reply
    ∧ (rstTick s).compEnable = s.compEnable ∧ (rstTick s).compPending = s.compPending ∧ (rstTick s).replySize = s.replySize
    ∧ (rstTick s).script = s.script ∧ (rstTick s).report = s.report := by
  refine ⟨?_, ?_, ?_, ?_, ?_, ?_, ?_, ?_, ?_, ?_, ?_, ?_, ?_, ?_, ?_, ?_, ?_, ?_, ?_, ?_, ?_, ?_⟩ <;> rfl

end Sys2Proof.Machine
end

