-- ==== Sys2Proof/Laws/Ops.lean ====
section
/-!
SUPPORT. One lemma per shared operation: everything it can have done when it answers a next state. Later proofs cite
these and do not unfold the operations.
-/

namespace Sys2Proof.Machine

/-! ### Going on -/

theorem andThen_next_iff {r : Result} {f : State → Result} {t : State} :
    andThen r f = .next t ↔ ∃ s, r = .next s ∧ f s = .next t := by
  cases r <;> simp [andThen]

@[simp] theorem andThen_next (s : State) (f : State → Result) : andThen (.next s) f = f s := rfl

@[simp] theorem andThen_fault (e : Fault) (f : State → Result) : andThen (.fault e) f = .fault e := rfl

@[simp] theorem andThen_refused (e : Refusal) (f : State → Result) : andThen (.refused e) f = .refused e := rfl

/-! ### The line -/

theorem lineLevel_eq_low_iff {s : State} :
    lineLevel s = .low ↔ s.drv = .low ∨ controllerDrive s = .low := by
  unfold lineLevel resolve; split <;> simp_all

theorem lineLevel_eq_high_iff {s : State} :
    lineLevel s = .high ↔ s.drv = .released ∧ controllerDrive s = .released := by
  unfold lineLevel resolve
  cases s.drv <;> cases controllerDrive s <;> simp

theorem fallingEdge_iff {s : State} : fallingEdge s = true ↔ s.prevLine = .high ∧ lineLevel s = .low := by
  simp [fallingEdge]

theorem edgeGate_iff {s : State} : edgeGate s = true ↔
    s.armed = true ∧ s.samplePending = false ∧ s.byteCounter < s.replyLen ∧ s.gieInhibit = false := by
  simp [edgeGate, and_assoc]

/-! ### The Line Driver -/

theorem sendSymbol_next {sym : Symbol} {s t : State} (h : sendSymbol sym s = .next t) :
    s.phase = .send ∧ t = emitSymbol sym (s.txTick + 1) s := by
  unfold sendSymbol at h
  split at h
  · cases h; exact ⟨‹_›, rfl⟩
  · cases h

theorem sendSymbol_of_send {sym : Symbol} {s : State} (h : s.phase = .send) :
    sendSymbol sym s = .next (emitSymbol sym (s.txTick + 1) s) := by
  simp [sendSymbol, h]

/-- `sendCommand` in a frame runs the symbol its next tick lies in. -/
theorem execSendCommand_of_send {bytes : List Byte} {s : State} (h : s.phase = .send)
    (hj : s.txTick + 1 < frameTicks s.cfg bytes.length) :
    execSendCommand bytes s
      = .next (emitSymbol (frameSymbolAt s.cfg bytes (s.txTick + 1)) (s.txTick + 1) s) := by
  simp only [execSendCommand, h, hj, if_true]
  cases hs : frameSymbolAt s.cfg bytes (s.txTick + 1) <;>
    simp [execSendZero, execSendOne, execSendStop, sendSymbol_of_send h]

theorem execSendCommand_of_idle {bytes : List Byte} {s : State} (h : s.phase = .idle) (hb : bytes ≠ [])
    (hc : configSendable s.cfg = true) : execSendCommand bytes s = .next (startFrame bytes s) := by
  simp [execSendCommand, h, hb, hc]

/-- All that `sendCommand` can have done: started the frame, or put out its next tick. -/
theorem execSendCommand_next {bytes : List Byte} {s t : State} (h : execSendCommand bytes s = .next t) :
    (s.phase = .idle ∧ bytes ≠ [] ∧ configSendable s.cfg = true ∧ t = startFrame bytes s)
    ∨ (s.phase = .send ∧ s.txTick + 1 < frameTicks s.cfg bytes.length
        ∧ t = emitSymbol (frameSymbolAt s.cfg bytes (s.txTick + 1)) (s.txTick + 1) s) := by
  cases hp : s.phase with
  | idle =>
    simp only [execSendCommand, hp] at h
    split at h
    · cases h
    · split at h
      · cases h
        exact .inl ⟨rfl, by simp_all [List.isEmpty_iff], ‹_›, rfl⟩
      · cases h
  | send =>
    by_cases hj : s.txTick + 1 < frameTicks s.cfg bytes.length
    · rw [execSendCommand_of_send hp hj] at h
      cases h
      exact .inr ⟨rfl, hj, rfl⟩
    · simp [execSendCommand, hp, hj] at h
  | uninit => simp [execSendCommand, hp] at h
  | wait => simp [execSendCommand, hp] at h
  | firstEdge => simp [execSendCommand, hp] at h
  | pollRx => simp [execSendCommand, hp] at h

/-! ### The countdown -/

/-- All that a tick of the countdown can do (R128, R187). -/
theorem countdownTick_cases (s : State) :
    (¬ (s.cfg.timeoutStrategy = .countdown ∧ s.cntRunning = true) ∧ countdownTick s = s)
    ∨ (s.cfg.timeoutStrategy = .countdown ∧ s.cntRunning = true ∧ s.cnt ≤ 1 ∧ s.gieInhibit = false
        ∧ countdownTick s = { s with cnt := 0, timeoutFlag := true, cntRunning := false })
    ∨ (s.cfg.timeoutStrategy = .countdown ∧ s.cntRunning = true ∧ ¬ (s.cnt ≤ 1 ∧ s.gieInhibit = false)
        ∧ countdownTick s = { s with cnt := s.cnt - 1 }) := by
  unfold countdownTick
  split
  · rename_i hc
    dsimp only
    by_cases hz : s.cnt - 1 = 0 ∧ s.gieInhibit = false
    · refine .inr (.inl ⟨hc.1, hc.2, by omega, hz.2, ?_⟩)
      rw [if_pos hz]
      simp [expiryHandler, hz.1]
    · refine .inr (.inr ⟨hc.1, hc.2, fun hx => hz ⟨by omega, hx.2⟩, ?_⟩)
      rw [if_neg hz]
  · rename_i hc
    exact .inl ⟨hc, rfl⟩

/-! ### The edge interrupt -/

/-- The body in a state where the scratch has a byte for it: both of its outcomes at once (R125). -/
theorem handlerBody_of_inRange {s : State} (h : s.byteCounter < s.mem.scratch.size) :
    ∃ scratch, memWrite s.mem.scratch s.byteCounter
        (orBit (s.mem.scratch.byteAt s.byteCounter) (sampledBit (lineLevel s)) (s.bitCounter - 1)) = some scratch
      ∧ handlerBody s = .next { s with
          mem := { s.mem with scratch := scratch }
          bitCounter := if s.bitCounter - 1 = 0 then bitsPerByte else s.bitCounter - 1
          byteCounter := if s.bitCounter - 1 = 0 then s.byteCounter + 1 else s.byteCounter
          samplePending := false } := by
  refine ⟨_, memWrite_eq_some h _, ?_⟩
  unfold handlerBody
  rw [memRead_eq_some h]
  dsimp only
  rw [memWrite_eq_some h]
  dsimp only
  by_cases hz : s.bitCounter - 1 = 0 <;> simp [hz]

/-- All that the body can have done. -/
theorem handlerBody_next {s t : State} (h : handlerBody s = .next t) :
    s.byteCounter < s.mem.scratch.size
    ∧ ∃ scratch, memWrite s.mem.scratch s.byteCounter
        (orBit (s.mem.scratch.byteAt s.byteCounter) (sampledBit (lineLevel s)) (s.bitCounter - 1)) = some scratch
      ∧ t = { s with
          mem := { s.mem with scratch := scratch }
          bitCounter := if s.bitCounter - 1 = 0 then bitsPerByte else s.bitCounter - 1
          byteCounter := if s.bitCounter - 1 = 0 then s.byteCounter + 1 else s.byteCounter
          samplePending := false } := by
  have hlt : s.byteCounter < s.mem.scratch.size := by
    by_contra hn
    simp [handlerBody, memRead, hn] at h
  obtain ⟨scratch, hw, hb⟩ := handlerBody_of_inRange hlt
  rw [hb] at h
  cases h
  exact ⟨hlt, scratch, hw, rfl⟩

/-- Line 1 of R138 does one of three things. -/
theorem edgeHandler_next {s t : State} (h : edgeHandler s = .next t) :
    (s.samplePending = true ∧ s.now = s.sampleAt ∧ handlerBody s = .next t)
    ∨ (¬ (s.samplePending = true ∧ s.now = s.sampleAt) ∧ fallingEdge s = true ∧ edgeGate s = true
        ∧ t = enterHandler s)
    ∨ (¬ (s.samplePending = true ∧ s.now = s.sampleAt) ∧ ¬ (fallingEdge s = true ∧ edgeGate s = true)
        ∧ t = s) := by
  unfold edgeHandler at h
  split at h
  · rename_i hp
    exact .inl ⟨hp.1, hp.2, h⟩
  · rename_i hp
    split at h
    · rename_i he
      cases h
      exact .inr (.inl ⟨hp, he.1, he.2, rfl⟩)
    · rename_i he
      cases h
      exact .inr (.inr ⟨hp, he, rfl⟩)

/-! ### The end of an Interrupt transaction -/

/-- The finish in a state whose buffers have room for the copy (R133, R137, R134, R135). -/
theorem finishInterrupt_of_inRange {s : State} (hwf : s.mem.reply.wf = true)
    (hs : s.byteCounter ≤ s.mem.scratch.size) (hr : s.byteCounter ≤ s.mem.reply.size) :
    ∃ reply, copyBytes s.mem.scratch s.mem.reply s.byteCounter = some reply
      ∧ reply.wf = true ∧ reply.size = s.mem.reply.size
      ∧ (∀ i, reply.byteAt i
          = if i < s.byteCounter then s.mem.scratch.byteAt i else s.mem.reply.byteAt i)
      ∧ finishInterrupt s
          = .next { returnReply { releaseSources (disarm s) with mem := { s.mem with reply := reply } } with
              phase := .idle } := by
  obtain ⟨reply, hc, hw, hsz, hb⟩ := copyBytes_spec hwf s.byteCounter hs hr
  refine ⟨reply, hc, hw, hsz, hb, ?_⟩
  simp [finishInterrupt, hc]

theorem finishInterrupt_next {s t : State} (h : finishInterrupt s = .next t) :
    ∃ reply, copyBytes s.mem.scratch s.mem.reply s.byteCounter = some reply
      ∧ t = { returnReply { releaseSources (disarm s) with mem := { s.mem with reply := reply } } with
          phase := .idle } := by
  unfold finishInterrupt at h
  simp only [releaseSources_fields, disarm_fields] at h
  split at h
  · cases h
  · rename_i reply hc
    cases h
    exact ⟨reply, hc, rfl⟩

theorem waitTests_next {s t : State} (h : waitTests s = .next t) :
    ((replyComplete s = true ∨ timedOut s = true) ∧ finishInterrupt s = .next t)
    ∨ (replyComplete s = false ∧ timedOut s = false ∧ t = s) := by
  unfold waitTests at h
  split at h
  · exact .inl ⟨.inl ‹_›, h⟩
  · split at h
    · exact .inl ⟨.inr ‹_›, h⟩
    · cases h
      refine .inr ⟨?_, ?_, rfl⟩ <;> simp_all

theorem waitTick_next {s t : State} (h : waitTick s = .next t) :
    ∃ s1, edgeHandler s = .next s1 ∧ waitTests (countdownTick s1) = .next t := by
  exact andThen_next_iff.1 h

/-! ### The Polling variant -/

theorem firstEdgeTick_next {s t : State} (h : firstEdgeTick s = .next t) :
    (lineLevel s = .low
      ∧ t = { s with phase := .pollRx, cur := 0, nbits := 0, highCount := 0, pollPrev := .low })
    ∨ (lineLevel s = .high ∧ t = s) := by
  unfold firstEdgeTick at h
  split at h
  · cases h; exact .inl ⟨‹_›, rfl⟩
  · cases h; exact .inr ⟨‹_›, rfl⟩

theorem storeFinishedByte_next {s t : State} (h : storeFinishedByte s = .next t) :
    (s.nbits % bitsPerByte = 0 ∧ ∃ reply, memWrite s.mem.reply (s.nbits / bitsPerByte - 1) s.cur = some reply
      ∧ t = { s with mem := { s.mem with reply := reply } })
    ∨ (s.nbits % bitsPerByte ≠ 0 ∧ t = s) := by
  unfold storeFinishedByte at h
  split at h
  · rename_i hz
    split at h
    · cases h
    · rename_i reply hw
      cases h
      exact .inl ⟨hz, reply, hw, rfl⟩
  · cases h; exact .inr ⟨‹_›, rfl⟩

/-- The sample step does one of three things (R103). -/
theorem pollTick_next {s t : State} (h : pollTick s = .next t) :
    (lineLevel s = .high ∧ t = { s with highCount := s.highCount + 1, pollPrev := .high })
    ∨ (lineLevel s = .low ∧ s.pollPrev = .low ∧ t = s)
    ∨ (lineLevel s = .low ∧ s.pollPrev = .high ∧ bitBoundary s = .next t) := by
  unfold pollTick at h
  split at h
  · cases h; exact .inl ⟨‹_›, rfl⟩
  · split at h
    · exact .inr (.inr ⟨‹_›, ‹_›, h⟩)
    · cases h; exact .inr (.inl ⟨‹_›, ‹_›, rfl⟩)

/-! ### Transactions and codes -/

theorem acceptCommand_next {s t : State} (h : acceptCommand s = .next t) :
    operandProblem s = none
    ∧ ∃ reply bytes, zeroFill s.mem.reply s.replySize = some reply
      ∧ firstBytes s.mem.cmd s.mem.cmd.size = some bytes
      ∧ execSendCommand bytes
          (prepareDecoder (latchOperands { s with mem := { s.mem with reply := reply } })) = .next t := by
  unfold acceptCommand at h
  split at h
  · cases h
  · split at h
    · exact ⟨‹_›, _, _, ‹_›, ‹_›, h⟩
    · cases h

theorem sendTick_next {s t : State} (h : sendTick s = .next t) :
    (s.txTick + 1 < frameTicks s.cfg s.cmdLen ∧ ∃ bytes u, commandBytes s = some bytes
      ∧ execSendCommand bytes s = .next u ∧ t = countdownTick u)
    ∨ (¬ s.txTick + 1 < frameTicks s.cfg s.cmdLen ∧ receiveEntry s = .next t) := by
  unfold sendTick at h
  split at h
  · split at h
    · cases h
    · obtain ⟨u, hu, ht⟩ := andThen_next_iff.1 h
      cases ht
      exact .inl ⟨‹_›, _, u, ‹_›, hu, rfl⟩
  · exact .inr ⟨‹_›, h⟩

theorem withCode_next {code : Byte} {s t : State} {m : Result} (h : withCode code s m = .next t) :
    commandCode s.mem = some code ∧ m = .next t := by
  unfold withCode at h
  split at h
  · cases h
  · split at h
    · rename_i hc heq
      subst heq
      exact ⟨hc, h⟩
    · cases h

theorem withCode_of_code {code : Byte} {s : State} {m : Result} (h : commandCode s.mem = some code) :
    withCode code s m = m := by
  simp [withCode, h]

theorem rejectedCode_next {code : Byte} {s t : State} (h : rejectedCode code s = .next t) :
    s.phase = .idle ∧ commandCode s.mem = some code ∧ t = raiseError .unsupportedCommand s := by
  unfold rejectedCode at h
  split at h
  · cases h
  · obtain ⟨hc, ht⟩ := withCode_next h
    cases ht
    exact ⟨‹_›, hc, rfl⟩
  all_goals cases h

/-- The opcode map, case by case (R67). -/
theorem decodeCommand_cases (c : Byte) :
    (c = 0x00 ∧ decodeCommand c = .identify) ∨ (c = 0x01 ∧ decodeCommand c = .poll)
    ∨ (c = 0x02 ∧ decodeCommand c = .read) ∨ (c = 0x03 ∧ decodeCommand c = .write)
    ∨ (c = 0xFF ∧ decodeCommand c = .reset)
    ∨ (c ∉ namedCodes ∧ decodeCommand c = .unsupported c) := by
  unfold decodeCommand
  by_cases h0 : c = 0x00
  · exact .inl ⟨h0, by rw [if_pos h0]⟩
  by_cases h1 : c = 0x01
  · exact .inr (.inl ⟨h1, by rw [if_neg h0, if_pos h1]⟩)
  by_cases h2 : c = 0x02
  · exact .inr (.inr (.inl ⟨h2, by rw [if_neg h0, if_neg h1, if_pos h2]⟩))
  by_cases h3 : c = 0x03
  · exact .inr (.inr (.inr (.inl ⟨h3, by rw [if_neg h0, if_neg h1, if_neg h2, if_pos h3]⟩)))
  by_cases h4 : c = 0xFF
  · exact .inr (.inr (.inr (.inr (.inl
      ⟨h4, by rw [if_neg h0, if_neg h1, if_neg h2, if_neg h3, if_pos h4]⟩))))
  · exact .inr (.inr (.inr (.inr (.inr
      ⟨by simp only [namedCodes, List.mem_cons, List.not_mem_nil]; tauto,
        by rw [if_neg h0, if_neg h1, if_neg h2, if_neg h3, if_neg h4]⟩))))

theorem supportedCode_eq_false_of_notNamed {c : Byte} (h : c ∉ namedCodes) : supportedCode c = false := by
  simp only [namedCodes, List.mem_cons, List.not_mem_nil, not_or] at h
  rw [supportedCode, decide_eq_false h.1, decide_eq_false h.2.1, decide_eq_false h.2.2.2.2.1]
  rfl

/-- What `runCommand` is, for a code it accepts and for one it rejects (R152). -/
theorem execRunCommand_eq {s : State} {code : Byte} (h : commandCode s.mem = some code) :
    execRunCommand s = if supportedCode code then transactionTick s else rejectedCode code s := by
  simp only [execRunCommand, h]
  rcases decodeCommand_cases code with ⟨hc, hd⟩ | ⟨hc, hd⟩ | ⟨hc, hd⟩ | ⟨hc, hd⟩ | ⟨hc, hd⟩ | ⟨hc, hd⟩
  · subst hc; rw [hd, if_pos (by decide)]; exact withCode_of_code h
  · subst hc; rw [hd, if_pos (by decide)]; exact withCode_of_code h
  · subst hc; rw [hd, if_neg (by decide)]; rfl
  · subst hc; rw [hd, if_neg (by decide)]; rfl
  · subst hc; rw [hd, if_pos (by decide)]; exact withCode_of_code h
  · rw [hd, if_neg (by simp [supportedCode_eq_false_of_notNamed hc])]; rfl

/-- `runCommand` goes on with a transaction whose code is supported, or rejects (R152). -/
theorem execRunCommand_next {s t : State} (h : execRunCommand s = .next t) :
    ∃ code, commandCode s.mem = some code
      ∧ ((supportedCode code = true ∧ transactionTick s = .next t)
        ∨ (supportedCode code = false ∧ s.phase = .idle ∧ t = raiseError .unsupportedCommand s)) := by
  cases hc : commandCode s.mem with
  | none => simp [execRunCommand, hc] at h
  | some code =>
    rw [execRunCommand_eq hc] at h
    refine ⟨code, rfl, ?_⟩
    split at h
    · exact .inl ⟨‹_›, h⟩
    · obtain ⟨hp, -, ht⟩ := rejectedCode_next h
      exact .inr ⟨by simp_all, hp, ht⟩

theorem execBegin_next {s t : State} (h : execBegin s = .next t) :
    (s.phase = .uninit ∨ s.phase = .idle) ∧ t = initialise s := by
  unfold execBegin at h
  split at h <;> first | (cases h; simp_all) | cases h

theorem hostWrite_next {a : HostAccess} {s t : State} (h : hostWrite a s = .next t) :
    (a = .decodePoll ∧ t = s)
    ∨ (∃ i v b, a = .writeReply i v ∧ memWrite s.mem.reply i v = some b
        ∧ t = { s with mem := { s.mem with reply := b } })
    ∨ (∃ i v b, a = .writeCmd i v ∧ memWrite s.mem.cmd i v = some b
        ∧ t = { s with mem := { s.mem with cmd := b } }) := by
  cases a with
  | decodePoll => cases h; exact .inl ⟨rfl, rfl⟩
  | writeReply i v =>
    simp only [hostWrite] at h
    split at h
    · cases h
    · cases h; exact .inr (.inl ⟨i, v, _, rfl, ‹_›, rfl⟩)
  | writeCmd i v =>
    simp only [hostWrite] at h
    split at h
    · cases h
    · cases h; exact .inr (.inr ⟨i, v, _, rfl, ‹_›, rfl⟩)

/-! ### Fetching and the step -/

/-- What a tick can run: a host operation on a free engine, the transaction in flight, the host's `decodePoll`. -/
theorem fetch_run {s : State} {i : Instr} (h : fetch s = .run i) :
    (i = .begin ∧ s.beginReq = true ∧ s.runReq = false ∧ s.access = none ∧ busy s = false)
    ∨ (i = .runCommand ∧ s.beginReq = false ∧ s.runReq = true ∧ s.access = none ∧ busy s = false)
    ∨ (i = .runCommand ∧ s.beginReq = false ∧ s.runReq = false ∧ s.access = none ∧ busy s = true)
    ∨ (∃ r0 r1 r2 r3, i = .decodePoll r0 r1 r2 r3 ∧ s.beginReq = false ∧ s.runReq = false
        ∧ s.access = some .decodePoll ∧ busy s = false
        ∧ replyWord s.mem.reply = some (.reply r0 r1 r2 r3)) := by
  unfold fetch at h
  cases hb : s.beginReq <;> cases hr : s.runReq <;> cases hbusy : busy s <;> cases ha : s.access <;>
    simp [hb, hr, hbusy, ha, decode, fetchQuiet] at h ⊢ <;> first | exact h.symm | skip
  rename_i a
  cases a with
  | decodePoll =>
    simp only [fetchWord] at h
    split at h
    · cases h
    · rename_i code hw
      unfold replyWord at hw
      split at hw
      · rename_i r0 r1 r2 r3 h0 h1 h2 h3
        cases hw
        simp only [decode, Fetched.run.injEq] at h
        exact ⟨r0, r1, r2, r3, h.symm, rfl, by simp [replyWord, h0, h1, h2, h3]⟩
      · cases hw
  | writeReply => cases h
  | writeCmd => cases h

theorem fetch_write {s : State} {a : HostAccess} (h : fetch s = .write a) :
    s.beginReq = false ∧ s.runReq = false ∧ s.access = some a ∧ busy s = false := by
  unfold fetch at h
  cases hb : s.beginReq <;> cases hr : s.runReq <;> cases hbusy : busy s <;> cases ha : s.access <;>
    simp [hb, hr, hbusy, ha, decode, fetchQuiet] at h ⊢
  rename_i x
  cases x with
  | decodePoll =>
    simp only [fetchWord] at h
    split at h
    · cases h
    · split at h <;> cases h
  | writeReply => simpa using h
  | writeCmd => simpa using h

theorem fetch_quiet {s : State} (h : fetch s = .quiet) :
    s.beginReq = false ∧ s.runReq = false ∧ s.access = none ∧ busy s = false := by
  unfold fetch at h
  cases hb : s.beginReq <;> cases hr : s.runReq <;> cases hbusy : busy s <;> cases ha : s.access <;>
    simp [hb, hr, hbusy, ha, decode, fetchQuiet] at h ⊢
  rename_i x
  cases x with
  | decodePoll =>
    simp only [fetchWord] at h
    split at h
    · cases h
    · split at h <;> cases h
  | writeReply => cases h
  | writeCmd => cases h

/-- The work of a tick: one of five cases. -/
theorem tickWork_next {s t : State} (h : tickWork s = .next t) :
    (fetch s = .run .begin ∧ execBegin s = .next t)
    ∨ (fetch s = .run .runCommand ∧ execRunCommand s = .next t)
    ∨ (∃ r0 r1 r2 r3, fetch s = .run (.decodePoll r0 r1 r2 r3)
        ∧ t = { s with report := decodePollReply r0 r1 r2 r3 })
    ∨ (∃ a, fetch s = .write a ∧ hostWrite a s = .next t)
    ∨ (fetch s = .quiet ∧ t = s) := by
  unfold tickWork at h
  split at h
  · rename_i i hf
    rcases fetch_run hf with ⟨rfl, -⟩ | ⟨rfl, -⟩ | ⟨rfl, -⟩ | ⟨r0, r1, r2, r3, rfl, -⟩
    · exact .inl ⟨hf, h⟩
    · exact .inr (.inl ⟨hf, h⟩)
    · exact .inr (.inl ⟨hf, h⟩)
    · cases h
      exact .inr (.inr (.inl ⟨r0, r1, r2, r3, hf, rfl⟩))
  · exact .inr (.inr (.inr (.inl ⟨_, ‹_›, h⟩)))
  · cases h; exact .inr (.inr (.inr (.inr ⟨‹_›, rfl⟩)))
  · cases h

/-- A step is a tick of reset, or beginning, work and end. -/
theorem step_next {s t : State} (h : step s = .next t) :
    (rstLevel s = true ∧ t = rstTick s)
    ∨ (rstLevel s = false ∧ ∃ u, tickWork (beginTick s) = .next u ∧ t = endTick u) := by
  unfold step at h
  split at h
  · cases h; exact .inl ⟨‹_›, rfl⟩
  · obtain ⟨u, hu, ht⟩ := andThen_next_iff.1 h
    cases ht
    exact .inr ⟨by simp_all, u, hu, rfl⟩

end Sys2Proof.Machine
end

