-- ==== Sys2Proof/Laws/PerInstr.lean ====
section
/-!
SUPPORT. One family of statements about every instruction, one lemma per constructor: the encoder writes an
instruction's word in the layer that spec/opcode_table.json gives its row.
-/

namespace Sys2Proof.Laws.WordFormat

/-- The word of an instruction stands in the layer its row of the table is written in. -/
def Statement (i : Instr) : Prop := (encode i).format = i.format

theorem identify : Statement .identify := rfl

theorem poll : Statement .poll := rfl

theorem read : Statement .read := rfl

theorem write : Statement .write := rfl

theorem reset : Statement .reset := rfl

theorem unsupported (code : Byte) : Statement (.unsupported code) := rfl

theorem begin : Statement .begin := rfl

theorem runCommand : Statement .runCommand := rfl

theorem sendZero : Statement .sendZero := rfl

theorem sendOne : Statement .sendOne := rfl

theorem sendStop : Statement .sendStop := rfl

theorem sendCommand (bytes : List Byte) : Statement (.sendCommand bytes) := rfl

theorem decodePoll (r0 r1 r2 r3 : Byte) : Statement (.decodePoll r0 r1 r2 r3) := rfl

end Sys2Proof.Laws.WordFormat
end

