-- ==== Sys2Proof/Tests/Slice0.lean ====
section
/-!
SUPPORT. The model's own tests: the checks of `WellFormed`, words written out from the spec's tables, one step of each
instruction on a small state with the result the spec's vectors or pseudocode give, and a witness for the hypotheses of
every obligation.
-/

namespace Sys2Proof.Tests

open Sys2Proof Sys2Proof.Machine

/-! ### Small states -/

/-- The configuration at the head of 95_test_vectors.md: `S = 1`, STOP 2, `d = 2`, threshold 2. -/
def cfg1 (decoder : Decoder) (timeout : Nat) : Config :=
  { Config.standard with
    ticksPerUnit := 1, stopHighTicks := 2, decoder := decoder, timeoutTicks := timeout
    sampleDelayTicks := 2, pollHighThreshold := 2 }

/-- The Controller's drives, and nothing else, on the inputs. -/
def envOf (drives : List Drive) : List EnvTick := drives.map fun d => ⟨d, false, none⟩

/-- An idle engine at tick 0 with `runCommand(cmd, reply, n)` on the ports; the buffer holds bytes `AA`. -/
def called (c : Config) (cmd : List Byte) (size n : Nat) (drives : List Drive) : State :=
  { State.reset with
    cfg := c, phase := .idle, runReq := true, replySize := n, env := envOf drives
    compEnable := ⟨true, false, true⟩, compPending := ⟨false, true, false⟩
    mem := { State.reset.mem with cmd := bufferOf cmd, reply := bufferOf (List.replicate size 0xAA) } }

/-- An idle engine with nothing on the ports. -/
def quiet (c : Config) (cmd : List Byte) (size : Nat) : State :=
  { called c cmd size 0 [.released] with runReq := false }

/-- A frame of `cmd` in flight whose last tick was tick `j`. -/
def sending (c : Config) (cmd : List Byte) (j : Nat) (drives : List Drive) : State :=
  { quiet c cmd 4 with
    phase := .send, txTick := j, now := j + 1, cmdLen := cmd.length, replyLen := 4, gieInhibit := true
    drv := waveAt c cmd j, bitCounter := 8, env := envOf drives
    suppress := c.decoder = .interrupt, compEnable := Sources.none
    savedEnable := ⟨true, false, true⟩, savedPending := ⟨false, true, false⟩ }

/-- `WAIT` of a POLL accepted at tick 0, in tick `now`, with these counters; `pending` gives the sample's tick. -/
def waiting (now bits bytes : Nat) (pending : Option Nat) (d : Drive) (timeout : Nat) : State :=
  { sending (cfg1 .interrupt timeout) [0x01] 34 [d] with
    phase := .wait, now := now, gieInhibit := false, armed := true, drv := .released
    bitCounter := bits, byteCounter := bytes
    samplePending := pending.isSome, sampleAt := pending.getD 0 }

/-- `POLLRX` of an IDENTIFY with `nbits` decoded and `high` High samples counted. -/
def sampling (nbits high : Nat) (prev : Level) (d : Drive) : State :=
  { sending (cfg1 .polling 400) [0x00] 34 [d] with
    phase := .pollRx, now := 40, drv := .released, replyLen := 1, nbits := nbits, highCount := high
    pollPrev := prev, cur := 0x26 }

/-- One field of what a step or a meaning answers. -/
def field {α : Type} (r : Result) (f : State → α) : Option α :=
  match r with
  | .next s => some (f s)
  | .fault _ => none
  | .refused _ => none

/-! ### Ill-formed terms are refused -/

theorem test_unsupported_named_code_is_illFormed :
    (Instr.unsupported 0x02).illFormed = some (.codeHasItsOwnRow 0x02) := by decide

theorem test_empty_command_is_illFormed : (Instr.sendCommand []).illFormed = some .emptyCommand := by decide

/-! ### Words written out from the spec's tables -/

/-- R67. -/
theorem test_decode_command_bytes :
    [0b00000000#8, 0b00000001#8, 0b00000010#8, 0b00000011#8, 0b11111111#8].map decodeCommand
      = [.identify, .poll, .read, .write, .reset] := by decide

/-- R69: the two ends of the rejected range and a code inside it. -/
theorem test_decode_other_codes :
    [0x04#8, 0x40#8, 0xFE#8].map decodeCommand = [.unsupported 0x04, .unsupported 0x40, .unsupported 0xFE] := by
  decide

/-- spec/opcode_table.json: `begin` is `10`, `runCommand` is `01` over the two request ports. -/
theorem test_decode_ports :
    decodeTableWord 2 0b10 = some .begin ∧ decodeTableWord 2 0b01 = some .runCommand
      ∧ decodeTableWord 2 0b00 = none ∧ decodeTableWord 2 0b11 = none := by decide

/-- R62: ZERO `0001`, ONE `0111`, STOP `011`. -/
theorem test_decode_symbols :
    decodeTableWord 4 0b0001 = some .sendZero ∧ decodeTableWord 4 0b0111 = some .sendOne
      ∧ decodeTableWord 3 0b011 = some .sendStop ∧ decodeTableWord 4 0b0011 = none := by decide

/-- V-LD2: the frame of `0x01`. -/
theorem test_decode_frame :
    decodeTableWord 35 0b00010001000100010001000100010111011 = some (.sendCommand [0x01]) := by decide +kernel

/-- R65: the reply `01 23 0A F6`, its first byte in bits 7..0. -/
theorem test_decode_reply :
    decodeTableWord 32 0xF60A2301 = some (.decodePoll 0x01 0x23 0x0A 0xF6) := by decide

/-- The other layers' words as numbers (R10, R62, R67). -/
theorem test_encode_words :
    [Instr.identify, .reset, .begin, .runCommand, .sendZero, .sendOne, .sendStop].map encodeTableWord
      = [(8, 0), (8, 255), (2, 2), (2, 1), (4, 1), (4, 7), (3, 3)] := by decide

/-- V-LD1, V-LD5: `0x00`, with the full STOP and with one of 1 tick. -/
theorem test_frame_lengths :
    (waveform (cfg1 .interrupt 400) [0x00]).length = 35
      ∧ (waveform { cfg1 .interrupt 400 with stopHighTicks := 1 } [0x00]).length = 34 := by decide

/-! ### One step of each instruction -/

/-- V-VAL5: the accept tick of IDENTIFY zero-fills three of four bytes and drives Low. -/
theorem test_identify_accept :
    field (step (called (cfg1 .interrupt 400) [0x00] 4 3 []))
      (fun t => (t.phase, t.drv, t.txTick, (List.range 4).map t.mem.reply.byteAt))
      = some (.send, .low, 0, [0, 0, 0, 0xAA]) := by decide +kernel

/-- R136: acquire saves the sources' bits and clears the enables. -/
theorem test_poll_acquires :
    field (step (called (cfg1 .interrupt 400) [0x01] 4 4 []))
      (fun t => (t.suppress, t.savedEnable, t.savedPending, t.compEnable, t.gieInhibit))
      = some (true, ⟨true, false, true⟩, ⟨false, true, false⟩, ⟨false, false, false⟩, true) := by decide +kernel

/-- R121: the countdown is loaded and runs. -/
theorem test_reset_starts_countdown :
    field (step (called { cfg1 .interrupt 400 with timeoutStrategy := .countdown } [0xFF] 3 3 []))
      (fun t => (t.cnt, t.cntRunning, t.bitCounter, t.byteCounter)) = some (400, true, 8, 0) := by decide +kernel

/-- V-VAL1. -/
theorem test_read_rejected :
    field (step (called (cfg1 .interrupt 400) [0x02] 4 4 [.released]))
      (fun t => (t.success, t.done, t.phase, t.drv, (List.range 4).map t.mem.reply.byteAt))
      = some (false, true, .idle, .released, [0xAA, 0xAA, 0xAA, 0xAA]) := by decide +kernel

/-- V-VAL2: the line stays High. -/
theorem test_write_rejected :
    field (step (called (cfg1 .interrupt 400) [0x03] 4 1 [.released]))
      (fun t => (t.success, t.done, t.prevLine, t.suppress)) = some (false, true, .high, false) := by decide +kernel

/-- V-VAL4: no operand of a rejected code is looked at. -/
theorem test_unsupported_rejected :
    field (step (called (cfg1 .interrupt 400) [0x40, 0x03, 0x00] 4 8 [.released]))
      (fun t => (t.success, t.done, t.phase, t.mem.reply.byteAt 0)) = some (false, true, .idle, 0xAA) := by
  decide +kernel

/-- R150. -/
theorem test_begin :
    field (step { State.reset with beginReq := true, env := envOf [.released] })
      (fun t => (t.phase, t.drv, t.armed, t.done)) = some (.idle, .released, false, false) := by decide

/-- R29, the column after `begin()`: the flag a countdown left is gone. -/
theorem test_begin_clears_timeoutFlag :
    field (exec .begin { State.reset with phase := .idle, timeoutFlag := true })
      (fun t => (t.phase, t.timeoutFlag, t.cntRunning)) = some (.idle, false, false) := by decide

/-- V-VAL6: `replySize = 9`, and a call before `begin()`. -/
theorem test_runCommand_refusals :
    exec .runCommand (called (cfg1 .interrupt 400) [0x00] 9 9 []) = .refused .replySizeOutOfRange
      ∧ exec .runCommand { called (cfg1 .interrupt 400) [0x00] 9 3 [] with phase := .uninit }
        = .refused .runBeforeBegin := by
  constructor <;> rfl

/-- R80: tick 2 of a ZERO is Low, tick 3 released. -/
theorem test_sendZero :
    field (exec .sendZero (sending (cfg1 .interrupt 400) [0x01] 1 [])) State.drv = some .low
      ∧ field (exec .sendZero (sending (cfg1 .interrupt 400) [0x01] 2 [])) State.drv = some .released := by decide

/-- R81: tick 0 of a ONE is Low, tick 1 released. -/
theorem test_sendOne :
    field (exec .sendOne (sending (cfg1 .interrupt 400) [0x01] 27 [])) State.drv = some .low
      ∧ field (exec .sendOne (sending (cfg1 .interrupt 400) [0x01] 28 [])) State.drv = some .released := by decide

/-- R82: the pulse behind the eighth cell. -/
theorem test_sendStop :
    field (exec .sendStop (sending (cfg1 .interrupt 400) [0x01] 31 [])) State.drv = some .low
      ∧ field (exec .sendStop (sending (cfg1 .interrupt 400) [0x01] 32 [])) State.drv = some .released := by decide

/-- R83: tick 29 of the frame of `0x01` lies in the ONE of bit 0. -/
theorem test_sendCommand :
    field (exec (.sendCommand [0x01]) (sending (cfg1 .interrupt 400) [0x01] 28 [])) (fun t => (t.drv, t.txTick))
      = some (.released, 29) := by decide

/-- S7: `01 23 0A F6`. -/
theorem test_decodePoll :
    field (exec (.decodePoll 0x01 0x23 0x0A 0xF6) State.reset) State.report = some ⟨0x0123, 10, -10⟩ := by decide

/-- Section 3.5 of the vectors: `80 01 7F 80`. -/
theorem test_decodePoll_signs :
    field (exec (.decodePoll 0x80 0x01 0x7F 0x80) State.reset) State.report = some ⟨0x8001, 127, -128⟩ := by decide

/-! ### The receive paths -/

/-- V-INT8: at `t_a = 35` the engine arms, and an edge in that very tick is caught. -/
theorem test_arming_tick_catches_edge :
    field (step { sending (cfg1 .interrupt 400) [0x01] 34 [.low] with prevLine := .high })
      (fun t => (t.phase, t.armed, t.gieInhibit, t.samplePending, t.sampleAt)) = some (.wait, true, false, true, 37) := by
  decide +kernel

/-- R125's example: `bitCounter = 8`, a High sample. -/
theorem test_handler_first_bit :
    field (step (waiting 39 8 0 (some 39) .released 400))
      (fun t => (t.bitCounter, t.byteCounter, t.mem.scratch.byteAt 0, t.samplePending)) = some (7, 0, 0x80, false) := by
  decide +kernel

/-- S6: the last bit in the very tick of the deadline is success. -/
theorem test_completion_beats_timeout :
    field (step (waiting 163 1 3 (some 163) .released 163))
      (fun t => (t.done, t.success, t.phase, t.suppress, t.compEnable))
      = some (true, true, .idle, false, ⟨true, false, true⟩) := by decide +kernel

/-- R182: the deadline without the last bit is a Timeout. -/
theorem test_timeout :
    field (step (waiting 163 1 3 none .released 163))
      (fun t => (t.done, t.success, t.cause, t.armed)) = some (true, false, some .timeout, false) := by decide +kernel

/-- R110: the eighth boundary after `0 1 0 0 1 1 0` with three High samples gives `4D`. -/
theorem test_polling_last_bit :
    field (step (sampling 7 3 .high .low))
      (fun t => (t.mem.reply.byteAt 0, t.success, t.done, t.phase, t.gieInhibit))
      = some (0x4D, true, true, .idle, false) := by decide +kernel

/-- Section 3.6 of the vectors: `0A` with a 1 shifted in is `15`. -/
theorem test_shiftIn : shiftIn 0x0A true = 0x15 ∧ shiftIn 0xAF false = 0x5E := by decide

/-- R225: a call while a transaction is in flight. -/
theorem test_call_in_flight_refused :
    step { waiting 50 8 0 none .released 400 with runReq := true } = .refused .requestWhileBusy := by rfl

/-- R73: the host issues its next line by itself. -/
theorem test_script_begin :
    field (step { State.reset with script := [.idle 0, .begin], env := envOf [.released] })
      (fun t => (t.phase, t.script)) = some (.idle, []) := by decide

/-- The word of every row of one byte runs as the next step after reset. -/
theorem test_withFetchWord_identify :
    field (step (State.reset.withFetchWord 8 0x00)) (fun t => (t.phase, t.drv)) = some (.send, .low) := by
  decide +kernel

theorem test_withFetchWord_read :
    field (step (State.reset.withFetchWord 8 0x02)) (fun t => (t.done, t.success)) = some (true, false) := by
  decide +kernel

/-! ### Witnesses

For every obligation with hypotheses, a state and operands that meet all of them; where a statement has several clauses,
one for each, at the edge of its range. -/

/-- A result that has a field is a next state. -/
theorem next_of_field {α : Type} {r : Result} {f : State → α} {v : α} (h : field r f = some v) : ∃ t, r = .next t := by
  cases r with
  | next s => exact ⟨s, rfl⟩
  | fault e => simp [field] at h
  | refused e => simp [field] at h

/-- POLL in flight, Interrupt variant: the first cell is over. -/
def inSend : State := sending (cfg1 .interrupt 400) [0x01] 3 [.low]

/-- `WAIT` in the tick of the last sample; the deadline is this tick. -/
def atLastSample : State := waiting 163 1 3 (some 163) .released 163

/-- `WAIT` in the tick of the deadline, one bit short. -/
def atDeadline : State := waiting 163 1 3 none .released 163

/-- `WAIT` one tick before the deadline. -/
def beforeDeadline : State := waiting 162 1 3 none .released 163

/-- A frame in flight, Polling variant. -/
def inPollingSend : State := sending (cfg1 .polling 400) [0x00] 3 [.low]

/-- An Interrupt engine with `runCommand([01], reply, 1)` on the ports. -/
def callInterrupt (timeout : Nat) (drives : List Drive) : State := called (cfg1 .interrupt timeout) [0x01] 2 1 drives

/-- A Polling engine with `runCommand([01], reply, 1)` on the ports. -/
def callPolling (drives : List Drive) : State := called (cfg1 .polling 400) [0x01] 2 1 drives

/-- The next tick of the frame is a next state. -/
theorem runs_inSend : ∃ t, step inSend = .next t ∧ t.done = false ∧ regimeOf t.phase = .suppressed := by
  have h : field (step inSend) (fun t => (t.done, regimeOf t.phase)) = some (false, .suppressed) := by decide +kernel
  obtain ⟨t, ht⟩ := next_of_field h
  rw [ht] at h
  exact ⟨t, ht, by simpa [field] using h⟩

theorem inv_inSend : Inv inSend :=
  ⟨by decide, by decide, by decide, fun _ => by decide +kernel, by decide, by decide, by decide⟩

theorem inv_atLastSample : Inv atLastSample :=
  ⟨by decide, by decide, by decide, by decide, fun _ => by decide +kernel, by decide, by decide⟩

theorem inv_atDeadline : Inv atDeadline :=
  ⟨by decide, by decide, by decide, by decide, fun _ => by decide +kernel, by decide, by decide⟩

theorem inv_beforeDeadline : Inv beforeDeadline :=
  ⟨by decide, by decide, by decide, by decide, fun _ => by decide +kernel, by decide, by decide⟩

theorem inv_inPollingSend : Inv inPollingSend :=
  ⟨by decide, by decide, by decide, fun _ => by decide +kernel, by decide, by decide, by decide⟩

theorem inv_sampling : Inv (sampling 7 3 .high .low) :=
  ⟨by decide, by decide, by decide, by decide, by decide, by decide, fun _ => by decide +kernel⟩

theorem inv_of_idle {s : State} (hw : s.mem.wf = true) (hp : s.phase = .idle) (h : Passive s) : Inv s := by
  refine ⟨hw, ?_, fun _ => h, ?_, ?_, ?_, ?_⟩ <;> intro h' <;> rw [hp] at h' <;> cases h'

theorem legal_callInterrupt (timeout : Nat) (drives : List Drive) : LegalCall (callInterrupt timeout drives) :=
  ⟨inv_of_idle rfl rfl ⟨rfl, rfl, rfl, rfl, rfl, rfl⟩, rfl, rfl, rfl, rfl, Nat.le_refl 1, rfl, Nat.le_refl 1,
    by show 1 ≤ 8; omega, by show 1 ≤ 2; omega, rfl, rfl⟩

theorem legal_callPolling (drives : List Drive) : LegalCall (callPolling drives) :=
  ⟨inv_of_idle rfl rfl ⟨rfl, rfl, rfl, rfl, rfl, rfl⟩, rfl, rfl, rfl, rfl, Nat.le_refl 1, rfl, Nat.le_refl 1,
    by show 1 ≤ 8; omega, by show 1 ≤ 2; omega, rfl, rfl⟩

theorem noReset_envOf (k : Nat) (s : State) (drives : List Drive) (h : s.env = envOf drives) : NoReset k s := by
  intro e he
  rw [h] at he
  obtain ⟨d, -, rfl⟩ := List.mem_map.1 (List.mem_of_mem_take he)
  rfl

theorem sends_envOf (s : State) (drives : List Drive) (h : s.env = envOf drives) : ControllerSends drives s := by
  have : s.env.map EnvTick.drvC = drives := by
    rw [h, envOf, List.map_map]
    exact List.map_id _
  show drives <+: s.env.map EnvTick.drvC
  rw [this]

/-! #### Encodings -/

theorem witness_DecodeOfEncode :
    (Instr.unsupported 0x04).wf = true ∧ (Instr.unsupported 0xFE).wf = true ∧ (Instr.sendCommand [0xFF]).wf = true := by
  decide

theorem witness_EncodeOfDecode : decode (.symbol [.low, .released, .released]) = .ok .sendStop := by rfl

theorem witness_TableNumberRoundTrip : (Instr.decodePoll 0 0xFF 0x80 0x7F).wf = true := by decide

theorem witness_OpcodeMapByCode :
    0x04 ≤ (0x04#8).toNat ∧ (0x04#8).toNat ≤ 0xFE ∧ 0x04 ≤ (0xFE#8).toNat ∧ (0xFE#8).toNat ≤ 0xFE := by decide

theorem witness_ReferenceDecoderRecoversCommand :
    configSendable (cfg1 .interrupt 400) = true
      ∧ configSendable { cfg1 .interrupt 400 with stopHighTicks := 1 } = true
      ∧ configSendable Config.standard = true := by decide

theorem witness_WaveformByFormula :
    configSendable (cfg1 .interrupt 400) = true ∧ 34 < frameTicks (cfg1 .interrupt 400) [0x01#8].length := by decide

theorem witness_FrameEndsReleased : configSendable { cfg1 .polling 400 with stopHighTicks := 1 } = true := by decide

/-! #### The Line Driver -/

/-- The second cell, its last tick; and the last cell, its first. -/
theorem witness_SendZeroDrivesItsCell :
    inSend.phase = .send ∧ 1 ≤ inSend.cfg.ticksPerUnit ∧ (inSend.txTick + 1) % (4 * inSend.cfg.ticksPerUnit) = 0
      ∧ inSend.txTick + 1 < 32 * inSend.cmdLen * inSend.cfg.ticksPerUnit ∧ 3 < 4 * inSend.cfg.ticksPerUnit := by
  decide

theorem witness_SendOneDrivesItsCell :
    let s := sending (cfg1 .interrupt 400) [0x01] 27 []
    s.phase = .send ∧ 1 ≤ s.cfg.ticksPerUnit ∧ (s.txTick + 1) % (4 * s.cfg.ticksPerUnit) = 0
      ∧ s.txTick + 1 < 32 * s.cmdLen * s.cfg.ticksPerUnit ∧ 0 < 4 * s.cfg.ticksPerUnit := by decide

theorem witness_SendStopDrivesItsPulse :
    let s := sending (cfg1 .interrupt 400) [0x01] 31 []
    s.phase = .send ∧ s.txTick + 1 = 32 * s.cmdLen * s.cfg.ticksPerUnit
      ∧ 2 < s.cfg.ticksPerUnit + s.cfg.stopHighTicks := by decide

theorem witness_SendCommandDrivesItsFrame :
    let s := quiet (cfg1 .interrupt 400) [0x01] 4
    s.phase = .idle ∧ [0x01#8] ≠ [] ∧ configSendable s.cfg = true
      ∧ (waveform s.cfg [0x01])[0]? = some .low ∧ (waveform s.cfg [0x01])[34]? = some .released := by decide

theorem witness_SendTickIgnoresTheLine :
    inSend.phase = .send ∧ inSend.txTick + 1 < frameTicks inSend.cfg inSend.cmdLen
      ∧ ∃ t, step { inSend with env := ⟨.low, false, none⟩ :: [] } = .next t :=
  have ⟨t, h, _⟩ := runs_inSend
  ⟨rfl, by decide, t, h⟩

/-! #### Host operations and command codes -/

theorem witness_BeginInitialises :
    State.reset.phase = .uninit ∧ (quiet (cfg1 .interrupt 400) [0x01] 4).phase = .idle ∧ busy inSend = true
      ∧ ∃ t, exec .begin State.reset = .next t :=
  ⟨rfl, rfl, rfl, _, rfl⟩

theorem witness_RejectedCodesTouchNothing :
    (quiet (cfg1 .interrupt 400) [0x02] 4).phase = .idle
      ∧ memRead (quiet (cfg1 .interrupt 400) [0x02] 4).mem.cmd 0 = some 0x02
      ∧ memRead (quiet (cfg1 .interrupt 400) [0x03] 4).mem.cmd 0 = some 0x03
      ∧ memRead (quiet (cfg1 .interrupt 400) [0x04] 4).mem.cmd 0 = some 0x04
      ∧ memRead (quiet (cfg1 .interrupt 400) [0xFE] 4).mem.cmd 0 = some 0xFE := by decide

theorem witness_ValidationByFirstByte :
    memRead (quiet (cfg1 .interrupt 400) [0x40, 0x01] 4).mem.cmd 0 = some 0x40
      ∧ (0x40#8 ≠ 0x00 ∧ 0x40#8 ≠ 0x01 ∧ 0x40#8 ≠ 0xFF)
      ∧ memRead (quiet (cfg1 .interrupt 400) [0x00] 4).mem.cmd 0 = some 0x00
      ∧ memRead (quiet (cfg1 .interrupt 400) [0x01] 4).mem.cmd 0 = some 0x01
      ∧ memRead (quiet (cfg1 .interrupt 400) [0xFF] 4).mem.cmd 0 = some 0xFF := by decide

theorem witness_CallsWithoutMeaningAreRefused :
    let s := called (cfg1 .interrupt 400) [0x01] 7 8 []
    memRead s.mem.cmd 0 = some 0x01 ∧ supportedCode 0x01 = true ∧ s.phase = .idle
      ∧ { s with phase := .uninit }.phase = .uninit
      ∧ ({ s with replySize := 0 }.replySize = 0 ∧ 8 < { s with replySize := 9 }.replySize)
      ∧ 1 ≤ s.replySize ∧ s.replySize ≤ 8 ∧ s.mem.reply.size < s.replySize
      ∧ { s with mem := { s.mem with cmd := bufferOf [] } }.mem.cmd.size = 0
      ∧ 8 ≤ { s with mem := { s.mem with reply := bufferOf (List.replicate 8 0xAA) } }.mem.reply.size
      ∧ s.cfg.decoder = .interrupt
      ∧ { s with cfg := { s.cfg with bitSource := .elapsedTime } }.cfg.bitSource = .elapsedTime := by decide

/-- Every accepted code under both decoders and both strategies, so that each clause of `Accepted` is met. -/
theorem witness_AcceptTickOfEveryAcceptedCode :
    ∀ code ∈ [0x00#8, 0x01#8, 0xFF#8], ∀ d ∈ [Decoder.interrupt, .polling],
      ∀ strategy ∈ [TimeoutStrategy.timestamp, .countdown],
        let s := called { cfg1 d 400 with timeoutStrategy := strategy } [code] 8 8 []
        s.phase = .idle ∧ s.mem.wf = true ∧ OperandsLegal s ∧ s.mem.cmd.byteAt 0 = code
          ∧ s.cfg.decoder = d ∧ s.cfg.timeoutStrategy = strategy := by decide

theorem witness_GenuineMarkIsFive : 0 < (bufferOf [0x05]).size ∧ isGenuine (bufferOf [0x05]) = true := by decide

/-! #### The Interrupt variant -/

theorem witness_FallingEdgeEntersHandler :
    beforeDeadline.gieInhibit = false ∧ beforeDeadline.samplePending = false := by decide

theorem witness_EdgeDuringRunIsMissed :
    let s := waiting 50 1 3 (some 51) .low 400
    s.samplePending = true ∧ s.now ≠ s.sampleAt := by decide

/-- The first bit of a byte and the last bit of the last byte. -/
theorem witness_HandlerBodyTakesTheBit :
    let first := waiting 39 8 0 (some 39) .released 400
    let last := waiting 39 1 7 (some 39) .low 400
    (first.mem.wf = true ∧ first.samplePending = true ∧ first.now = first.sampleAt ∧ 1 ≤ first.bitCounter
        ∧ first.bitCounter ≤ 8 ∧ first.byteCounter < 8 ∧ first.bitCounter ≠ 1)
      ∧ (last.mem.wf = true ∧ last.samplePending = true ∧ last.now = last.sampleAt ∧ 1 ≤ last.bitCounter
        ∧ last.bitCounter ≤ 8 ∧ last.byteCounter < 8 ∧ last.bitCounter = 1) := by decide

/-- `cnt` at 2, and at 1 and 0 with interrupts suppressed and open. -/
theorem witness_CountdownExpiresOnceInterruptsAreOpen :
    let s := { State.reset with
      cfg := { cfg1 .interrupt 400 with timeoutStrategy := .countdown }, cntRunning := true, cnt := 2 }
    s.cfg.timeoutStrategy = .countdown ∧ s.cntRunning = true ∧ 2 ≤ s.cnt
      ∧ ({ s with cnt := 1, gieInhibit := true }.cnt ≤ 1 ∧ { s with cnt := 1, gieInhibit := true }.gieInhibit = true)
      ∧ ({ s with cnt := 0 }.cnt ≤ 1 ∧ { s with cnt := 0 }.gieInhibit = false) := by decide

theorem witness_FinishDisarmsRestoresCopiesReturns :
    let s := { waiting 39 8 8 none .low 400 with
      mem := { atDeadline.mem with reply := bufferOf (List.replicate 8 0xAA) } }
    s.mem.wf = true ∧ s.byteCounter ≤ 8 ∧ s.byteCounter ≤ s.mem.reply.size := by decide

theorem witness_CompletionBeatsTimeout :
    (Inv atLastSample ∧ atLastSample.phase = .wait ∧ rstLevel atLastSample = false ∧ PortsQuiet atLastSample
        ∧ CompletesNow atLastSample)
      ∧ (Inv atDeadline ∧ atDeadline.phase = .wait ∧ rstLevel atDeadline = false ∧ PortsQuiet atDeadline
        ∧ ¬ CompletesNow atDeadline ∧ atDeadline.cfg.timeoutTicks ≤ atDeadline.now - atDeadline.t0)
      ∧ (Inv beforeDeadline ∧ beforeDeadline.phase = .wait ∧ rstLevel beforeDeadline = false
        ∧ PortsQuiet beforeDeadline ∧ ¬ CompletesNow beforeDeadline
        ∧ beforeDeadline.now - beforeDeadline.t0 < beforeDeadline.cfg.timeoutTicks) :=
  ⟨⟨inv_atLastSample, by decide⟩, ⟨inv_atDeadline, by decide⟩, ⟨inv_beforeDeadline, by decide⟩⟩

theorem witness_SuppressedRegimeRunsNoHandler :
    Inv inSend ∧ rstLevel inSend = false ∧ regimeOf inSend.phase = .suppressed
      ∧ ∃ t, step inSend = .next t ∧ regimeOf t.phase = .suppressed :=
  have ⟨t, h1, _, h3⟩ := runs_inSend
  ⟨inv_inSend, rfl, rfl, t, h1, h3⟩

theorem witness_WaitLoopOnlyReads :
    beforeDeadline.phase = .wait ∧ rstLevel beforeDeadline = false ∧ (∃ t, step beforeDeadline = .next t)
      ∧ ¬ (beforeDeadline.samplePending = true ∧ beforeDeadline.now = beforeDeadline.sampleAt) :=
  ⟨rfl, rfl, next_of_field (f := fun t => t.phase) (v := .wait) (by decide +kernel), by decide⟩

/-! #### The Polling variant -/

theorem witness_FirstLowLineEndsTheWait :
    let s := { sampling 0 0 .low .low with phase := .firstEdge }
    s.phase = .firstEdge ∧ memRead s.mem.cmd 0 = some 0x00 ∧ supportedCode 0x00 = true ∧ lineLevel s = .low
      ∧ lineLevel { s with env := envOf [.released] } = .high := by decide

/-- A High sample, a second Low one, a boundary inside a byte, one that ends a byte, and the last. -/
theorem witness_SampleStep :
    let last := sampling 7 3 .high .low
    let inner := { sampling 6 3 .high .low with replyLen := 2 }
    let byteEnd := { sampling 7 3 .high .low with replyLen := 2 }
    (last.phase = .pollRx ∧ last.mem.wf = true ∧ memRead last.mem.cmd 0 = some 0x00 ∧ supportedCode 0x00 = true
        ∧ last.nbits < 8 * last.replyLen ∧ last.replyLen ≤ last.mem.reply.size)
      ∧ lineLevel (sampling 7 3 .high .released) = .high
      ∧ (lineLevel (sampling 7 3 .low .low) = .low ∧ (sampling 7 3 .low .low).pollPrev = .low)
      ∧ (lineLevel last = .low ∧ last.pollPrev = .high ∧ last.nbits + 1 = 8 * last.replyLen)
      ∧ (inner.nbits < 8 * inner.replyLen ∧ (inner.nbits + 1) % 8 ≠ 0 ∧ inner.nbits + 1 ≠ 8 * inner.replyLen)
      ∧ (byteEnd.nbits < 8 * byteEnd.replyLen ∧ (byteEnd.nbits + 1) % 8 = 0
        ∧ byteEnd.nbits + 1 ≠ 8 * byteEnd.replyLen) := by decide

theorem witness_PollingLeavesTheInterruptPathAlone :
    Inv inPollingSend ∧ inPollingSend.cfg.decoder = .polling ∧ rstLevel inPollingSend = false
      ∧ ∃ t, step inPollingSend = .next t ∧ busy t = true := by
  refine ⟨inv_inPollingSend, rfl, rfl, ?_⟩
  obtain ⟨t, ht⟩ := next_of_field (r := step inPollingSend) (f := fun t => busy t) (v := true) (by decide +kernel)
  have h : field (step inPollingSend) (fun t => busy t) = some true := by decide +kernel
  rw [ht] at h
  exact ⟨t, ht, by simpa [field] using h⟩

/-! #### The step -/

theorem witness_StepRunsTheRequestedInstruction :
    let s := called (cfg1 .interrupt 400) [0x01] 4 4 [.released]
    rstLevel s = false ∧ busy s = false ∧ s.access = none
      ∧ decode (.ports s.beginReq s.runReq) = .ok .runCommand
      ∧ decode (.ports { s with beginReq := true, runReq := false }.beginReq false) = .ok .begin :=
  ⟨rfl, rfl, rfl, rfl, rfl⟩

theorem witness_StepRunsTheTransactionInFlight :
    rstLevel atDeadline = false ∧ busy atDeadline = true ∧ PortsQuiet atDeadline
      ∧ memRead atDeadline.mem.cmd 0 = some 0x01 := by decide

theorem witness_StepRunsTheSymbolInFlight :
    Inv inSend ∧ inSend.phase = .send ∧ rstLevel inSend = false ∧ PortsQuiet inSend
      ∧ inSend.txTick + 1 < frameTicks inSend.cfg inSend.cmdLen :=
  ⟨inv_inSend, by decide⟩

theorem witness_StepRunsDecodePoll :
    let s := { quiet (cfg1 .interrupt 400) [0x01] 4 with access := some .decodePoll }
    rstLevel s = false ∧ busy s = false ∧ s.beginReq = false ∧ s.runReq = false ∧ s.access = some .decodePoll
      ∧ 4 ≤ s.mem.reply.size := by decide

theorem witness_RequestInFlightIsRefused :
    let call := { inSend with runReq := true }
    let access := { inSend with access := some (.writeReply 0 1) }
    (rstLevel call = false ∧ busy call = true ∧ call.access = none ∧ call.beginReq ≠ call.runReq)
      ∧ (rstLevel access = false ∧ busy access = true ∧ access.beginReq = false ∧ access.runReq = false
        ∧ access.access ≠ none) := by decide

theorem witness_EveryTickRecordsTheLine : rstLevel inSend = false ∧ ∃ t, step inSend = .next t :=
  have ⟨t, h, _⟩ := runs_inSend
  ⟨rfl, t, h⟩

theorem witness_ResultIsHeldUntilTheNextCall :
    let s := { quiet (cfg1 .interrupt 400) [0x01] 4 with success := true, done := true }
    busy s = false ∧ rstLevel s = false ∧ (beginTick s).runReq = false ∧ ∃ t, step s = .next t :=
  ⟨rfl, rfl, rfl, next_of_field (f := fun t => t.success) (v := true) (by decide +kernel)⟩

theorem witness_ConfigurationIsFixed : ∃ t, step inSend = .next t :=
  have ⟨t, h, _⟩ := runs_inSend
  ⟨t, h⟩

theorem witness_ResetPortResetsTheEngine :
    rstLevel { inSend with env := [⟨.low, true, none⟩] } = true := by decide

/-! #### Invariants and whole-machine rules -/

/-- A step that ends a transaction, and one that goes on with it. -/
theorem witness_StepKeepsTheInvariant :
    (Inv atLastSample ∧ ∃ t, step atLastSample = .next t) ∧ (Inv inSend ∧ ∃ t, step inSend = .next t) :=
  ⟨⟨inv_atLastSample, next_of_field (f := fun t => t.phase) (v := .idle) (by decide +kernel)⟩,
    ⟨inv_inSend, runs_inSend.imp fun _ h => h.1⟩⟩

theorem witness_NoAccessOutOfRange : Inv (sampling 7 3 .high .low) := inv_sampling

theorem witness_EveryReturnLeavesTheEngineReady :
    (Inv atDeadline ∧ busy atDeadline = true ∧ rstLevel atDeadline = false
        ∧ field (step atDeadline) State.done = some true)
      ∧ (Inv inSend ∧ busy inSend = true ∧ rstLevel inSend = false
        ∧ ∃ t, step inSend = .next t ∧ t.done = false) :=
  have ⟨t, h1, h2, _⟩ := runs_inSend
  ⟨⟨inv_atDeadline, rfl, rfl, by decide +kernel⟩, ⟨inv_inSend, rfl, rfl, t, h1, h2⟩⟩

theorem witness_TransactionKeepsToItsBuffers :
    let s := sampling 7 3 .high .low
    Inv s ∧ busy s = true ∧ rstLevel s = false ∧ (∃ t, step s = .next t) ∧ s.replyLen ≤ 1 :=
  ⟨inv_sampling, rfl, rfl, next_of_field (f := fun t => t.phase) (v := .idle) (by decide +kernel), by decide⟩

/-! #### Whole transactions -/

theorem witness_CallPutsItsFrameOnTheWire :
    let s := callInterrupt 400 (silence 35)
    LegalCall s ∧ NoReset (34 + 1) s ∧ 34 < callFrameTicks s :=
  ⟨legal_callInterrupt _ _, noReset_envOf _ _ _ rfl, by decide⟩

theorem witness_InterruptCallAlwaysReturns :
    let s := callInterrupt 40 (silence 41)
    LegalCall s ∧ s.cfg.decoder = .interrupt ∧ NoReset (max s.cfg.timeoutTicks (callFrameTicks s) + 1) s :=
  ⟨legal_callInterrupt _ _, rfl, noReset_envOf _ _ _ rfl⟩

/-- The deadline at `t_a` itself. -/
theorem witness_SilentControllerTimesOut :
    let s := callInterrupt 35 (silence 36)
    LegalCall s ∧ s.cfg.decoder = .interrupt ∧ callFrameTicks s ≤ s.cfg.timeoutTicks
      ∧ NoReset (s.cfg.timeoutTicks + 1) s ∧ ControllerSends (silence (s.cfg.timeoutTicks + 1)) s :=
  ⟨legal_callInterrupt _ _, rfl, by decide, noReset_envOf _ _ _ rfl, sends_envOf _ _ rfl⟩

/-- One byte after a gap of no tick, its last bit in the very tick of the deadline. -/
theorem witness_InterruptCallReceivesTheReply :
    let s := callInterrupt 65 (silence 35 ++ replyCells (cfg1 .interrupt 65) [0xA5])
    LegalCall s ∧ s.cfg.decoder = .interrupt ∧ sampleDelayLegal s.cfg = true ∧ [0xA5#8].length = s.replySize
      ∧ callFrameTicks s + 0 + 4 * s.cfg.ticksPerUnit * (8 * s.replySize - 1) + s.cfg.sampleDelayTicks
        ≤ s.cfg.timeoutTicks
      ∧ NoReset (callFrameTicks s + 0 + 32 * s.cfg.ticksPerUnit * s.replySize) s
      ∧ ControllerSends (silence (callFrameTicks s + 0) ++ replyCells s.cfg [0xA5]) s :=
  ⟨legal_callInterrupt _ _, rfl, by decide, rfl, by decide, noReset_envOf _ _ _ rfl, sends_envOf _ _ rfl⟩

theorem witness_PollingCallReceivesTheReply :
    let s := callPolling (silence 35 ++ replyCells (cfg1 .polling 400) [0xA5] ++ [.low])
    LegalCall s ∧ s.cfg.decoder = .polling ∧ thresholdLegal s.cfg = true ∧ [0xA5#8].length = s.replySize
      ∧ NoReset (callFrameTicks s + 0 + 32 * s.cfg.ticksPerUnit * s.replySize + 1) s
      ∧ ControllerSends (silence (callFrameTicks s + 0) ++ replyCells s.cfg [0xA5] ++ [.low]) s :=
  ⟨legal_callPolling _, rfl, by decide, rfl, noReset_envOf _ _ _ rfl, sends_envOf _ _ rfl⟩

theorem witness_PollingCallHangsOnSilence :
    let s := callPolling (silence 41)
    LegalCall s ∧ s.cfg.decoder = .polling ∧ NoReset (callFrameTicks s + 5 + 1) s
      ∧ ControllerSends (silence (callFrameTicks s + 5 + 1)) s :=
  ⟨legal_callPolling _, rfl, noReset_envOf _ _ _ rfl, sends_envOf _ _ rfl⟩

theorem witness_LastBitNeedsOneMoreEdge :
    let s := callPolling (silence 35 ++ replyCells (cfg1 .polling 400) [0xA5] ++ silence 5)
    LegalCall s ∧ s.cfg.decoder = .polling ∧ [0xA5#8].length = s.replySize
      ∧ NoReset (callFrameTicks s + 0 + 32 * s.cfg.ticksPerUnit * s.replySize + 5) s
      ∧ ControllerSends (silence (callFrameTicks s + 0) ++ replyCells s.cfg [0xA5] ++ silence 5) s :=
  ⟨legal_callPolling _, rfl, rfl, noReset_envOf _ _ _ rfl, sends_envOf _ _ rfl⟩

theorem witness_StrategiesLookTheSameToTheHost :
    (State.reset.phase = .uninit ∧ Passive State.reset)
      ∧ ((callInterrupt 40 []).phase = .idle ∧ Passive (callInterrupt 40 [])) := by decide

/-- The deadline before `t_a`: the call returns in the first tick of `WAIT`. -/
theorem witness_SuppressionIsAlwaysReleased :
    let s := callInterrupt 0 (silence 36)
    LegalCall s ∧ NoReset 36 s ∧ SourcesQuiet 36 s ∧ 1 ≤ 36
      ∧ (∀ j, 1 ≤ j → j < 36 → ∃ u, runTicks j s = .next u ∧ u.done = false)
      ∧ ∃ t, runTicks 36 s = .next t ∧ t.done = true := by
  have all : ∀ j : Fin 36, 1 ≤ j.val →
      field (runTicks j.val (callInterrupt 0 (silence 36))) State.done = some false := by decide +kernel
  have last : field (runTicks 36 (callInterrupt 0 (silence 36))) State.done = some true := by decide +kernel
  refine ⟨legal_callInterrupt _ _, by decide +kernel, by decide +kernel, by omega, fun j h1 h2 => ?_, ?_⟩
  · have h := all ⟨j, h2⟩ h1
    obtain ⟨u, hu⟩ := next_of_field h
    exact ⟨u, hu, by rw [hu] at h; simpa [field] using h⟩
  · obtain ⟨t, ht⟩ := next_of_field last
    exact ⟨t, ht, by rw [ht] at last; simpa [field] using last⟩

end Sys2Proof.Tests
end

/-! ### The reference decoder on a frame (R89)

The cuts of `splitAtFalls` fall exactly between the symbols of a frame, so the decoder reads the symbols back one by
one. -/

namespace Sys2Proof

theorem configSendable_iff {c : Config} : Machine.configSendable c = true ↔
    1 ≤ c.ticksPerUnit ∧ 1 ≤ c.stopHighTicks ∧ c.stopHighTicks ≤ 2 * c.ticksPerUnit := by
  simp [Machine.configSendable, and_assoc]

/-- Both parts of a symbol last at least one tick. -/
theorem symbolTicks_pos {c : Config} (hc : Machine.configSendable c = true) (sym : Symbol) :
    0 < symbolLowTicks c sym ∧ 0 < symbolReleasedTicks c sym := by
  obtain ⟨hS, hStop, -⟩ := configSendable_iff.1 hc
  cases sym <;> simp only [symbolLowTicks, symbolReleasedTicks] <;> omega

/-- The first piece of a wave begins with the wave's first tick. -/
theorem splitAtFalls_cons_eq (d : Drive) (rest : List Drive) :
    ∃ piece more, splitAtFalls (d :: rest) = (d :: piece) :: more := by
  rw [splitAtFalls]
  split
  · exact ⟨_, _, rfl⟩
  · split <;> exact ⟨_, _, rfl⟩

/-- A Low tick is never cut off from what follows it. -/
theorem splitAtFalls_low_cons {wave piece : List Drive} {more : List (List Drive)}
    (h : splitAtFalls wave = piece :: more) :
    splitAtFalls (.low :: wave) = (.low :: piece) :: more := by
  simp [splitAtFalls, h]

theorem splitAtFalls_low_append {wave piece : List Drive} {more : List (List Drive)}
    (h : splitAtFalls wave = piece :: more) (n : Nat) :
    splitAtFalls (List.replicate n .low ++ wave) = (List.replicate n .low ++ piece) :: more := by
  induction n with
  | zero => exact h
  | succ n ih => exact splitAtFalls_low_cons ih

/-- A released run is cut off from what follows it, if that begins Low. -/
theorem splitAtFalls_released_append {wave : List Drive} (hw : wave.head? ≠ some .released) (n : Nat) :
    splitAtFalls (List.replicate (n + 1) .released ++ wave)
      = List.replicate (n + 1) .released :: splitAtFalls wave := by
  induction n with
  | zero =>
    match wave with
    | [] => rfl
    | .released :: _ => simp at hw
    | .low :: rest =>
      obtain ⟨piece, more, h⟩ := splitAtFalls_cons_eq .low rest
      rw [List.replicate_one, List.singleton_append, splitAtFalls, h]
      simp
  | succ n ih =>
    rw [List.replicate_succ, List.cons_append, splitAtFalls, ih]
    simp [List.replicate_succ]

/-- A symbol is one piece. -/
theorem splitAtFalls_symbolWave_append {c : Config} (hc : Machine.configSendable c = true) (sym : Symbol)
    {wave : List Drive} (hw : wave.head? ≠ some .released) :
    splitAtFalls (symbolWave c sym ++ wave) = symbolWave c sym :: splitAtFalls wave := by
  obtain ⟨n, hn⟩ := Nat.exists_eq_add_one.2 (symbolTicks_pos hc sym).2
  rw [symbolWave, List.append_assoc, hn]
  exact splitAtFalls_low_append (splitAtFalls_released_append hw n) _

/-- A sequence of symbols begins Low. -/
theorem symbolWaves_head?_ne_released {c : Config} (hc : Machine.configSendable c = true) (syms : List Symbol) :
    (syms.flatMap (symbolWave c)).head? ≠ some .released := by
  cases syms with
  | nil => simp
  | cons sym rest =>
    obtain ⟨n, hn⟩ := Nat.exists_eq_add_one.2 (symbolTicks_pos hc sym).1
    simp [symbolWave, hn, List.replicate_succ]

/-- The pieces of a sequence of symbols are its symbols. -/
theorem splitAtFalls_symbolWaves {c : Config} (hc : Machine.configSendable c = true) (syms : List Symbol) :
    splitAtFalls (syms.flatMap (symbolWave c)) = syms.map (symbolWave c) := by
  induction syms with
  | nil => rfl
  | cons sym rest ih =>
    rw [List.flatMap_cons, splitAtFalls_symbolWave_append hc sym (symbolWaves_head?_ne_released hc rest), ih,
      List.map_cons]

theorem lowRun_symbolWave (c : Config) (sym : Symbol) : lowRun (symbolWave c sym) = symbolLowTicks c sym := by
  unfold symbolWave
  induction symbolLowTicks c sym with
  | zero => cases symbolReleasedTicks c sym <;> rfl
  | succ n ih => rw [List.replicate_succ, List.cons_append, lowRun, ih]

/-- The cell of a bit is read back as that bit: the Low runs `S` and `3*S` differ. -/
theorem pieceBit_symbolWave {c : Config} (hS : 1 ≤ c.ticksPerUnit) (bit : Bool) :
    pieceBit c (symbolWave c (bitSymbol bit)) = some bit := by
  rw [pieceBit, symbolWave_length, lowRun_symbolWave]
  cases bit
  · simp [bitSymbol, symbolLowTicks]; omega
  · simp [bitSymbol, symbolLowTicks]

theorem isStopPiece_symbolWave (c : Config) : isStopPiece c (symbolWave c .stop) = true := by
  simp [isStopPiece, symbolWave_length, lowRun_symbolWave, symbolLowTicks]

/-- The cells of bits with a STOP behind them are read back as those bits. -/
theorem pieceBits_bitCells {c : Config} (hS : 1 ≤ c.ticksPerUnit) (bits : List Bool) :
    pieceBits c ((bits.map bitSymbol ++ [Symbol.stop]).map (symbolWave c)) = some bits := by
  induction bits with
  | nil => simp [pieceBits, isStopPiece_symbolWave]
  | cons bit rest ih =>
    rw [List.map_cons, List.cons_append, List.map_cons, pieceBits, pieceBit_symbolWave hS, ih]
    simp

/-- The bits of a byte in the order they are sent: bit 7 first (R45). -/
def byteBits (b : Byte) : List Bool := [7, 6, 5, 4, 3, 2, 1, 0].map b.getLsbD

theorem byteSymbols_eq_map_bitSymbol : byteSymbols = fun b => (byteBits b).map bitSymbol := rfl

theorem frameSymbols_eq_map_bitSymbol (bytes : List Byte) :
    frameSymbols bytes = (bytes.flatMap byteBits).map bitSymbol ++ [.stop] := by
  rw [frameSymbols, byteSymbols_eq_map_bitSymbol, List.map_flatMap]

/-- A byte is packed again from its own bits: checked for each of the 256 bytes. -/
theorem byteOfBits_getLsbD (b : Byte) :
    byteOfBits (b.getLsbD 7) (b.getLsbD 6) (b.getLsbD 5) (b.getLsbD 4) (b.getLsbD 3) (b.getLsbD 2) (b.getLsbD 1)
      (b.getLsbD 0) = b := by
  revert b; decide

theorem packBits_byteBits (bytes : List Byte) : packBits (bytes.flatMap byteBits) = some bytes := by
  induction bytes with
  | nil => rfl
  | cons b rest ih =>
    simp only [List.flatMap_cons, byteBits, List.map_cons, List.map_nil, List.cons_append, List.nil_append, packBits,
      byteOfBits_getLsbD]
    rw [show List.flatMap _ rest = rest.flatMap byteBits from rfl, ih, Option.map_some]

/-- Settles O6: the pieces of the waveform are the symbols of its frame, their Low runs are the bits, and eight bits
pack into the byte they came from. -/
theorem referenceDecoderRecoversCommand : Obligations.ReferenceDecoderRecoversCommand := by
  unfold Obligations.ReferenceDecoderRecoversCommand
  intro c bytes hc
  rw [refDecode, waveform, splitAtFalls_symbolWaves hc, frameSymbols_eq_map_bitSymbol,
    pieceBits_bitCells (configSendable_iff.1 hc).1, Option.bind_some, packBits_byteBits]

end Sys2Proof

/-! ### The frame tick by tick (R83, R84, R85)

A frame is made of cells of one length, and a byte of cells in one number, so the tick `j` of the frame is found by
division: the formula of R84. -/

namespace Sys2Proof

/-- Reading a concatenation of lists of one length `L`: which list, and where in it. -/
theorem getElem?_flatMap_of_uniform {α β : Type} {f : α → List β} {L : Nat} (hL : 0 < L) {l : List α}
    (hf : ∀ a ∈ l, (f a).length = L) (j : Nat) :
    (l.flatMap f)[j]? = l[j / L]?.bind fun a => (f a)[j % L]? := by
  induction l generalizing j with
  | nil => simp
  | cons a rest ih =>
    obtain ⟨ha, hrest⟩ := List.forall_mem_cons.1 hf
    rw [List.flatMap_cons, List.getElem?_append, ha]
    split
    · next hj => simp [Nat.div_eq_of_lt hj, Nat.mod_eq_of_lt hj]
    · next hj =>
      have hj : L ≤ j := Nat.le_of_not_lt hj
      rw [ih hrest, Nat.mod_eq_sub_mod hj, Nat.div_eq_sub_div hL hj, List.getElem?_cons_succ]

theorem byteSymbols_getElem? (b : Byte) {k : Nat} (hk : k < 8) :
    (byteSymbols b)[k]? = some (bitSymbol (b.getLsbD (7 - k))) := by
  interval_cases k <;> rfl

/-- The data cells of a command: bit 7 of byte 0 first. -/
theorem dataCells_getElem? {bytes : List Byte} {m : Nat} (hm : m < 8 * bytes.length) :
    (bytes.flatMap byteSymbols)[m]? = some (bitSymbol ((bytes.getD (m / 8) 0).getLsbD (7 - m % 8))) := by
  have hi : m / 8 < bytes.length := by omega
  rw [getElem?_flatMap_of_uniform (by decide) (fun b _ => byteSymbols_length b), List.getElem?_eq_getElem hi,
    Option.bind_some, byteSymbols_getElem? _ (Nat.mod_lt _ (by decide)), List.getD_eq_getElem _ _ hi]

theorem symbolWave_bitSymbol_length (c : Config) (bit : Bool) :
    (symbolWave c (bitSymbol bit)).length = 4 * c.ticksPerUnit := by
  cases bit <;> exact symbolWave_length c _

theorem dataCell_length {c : Config} {bytes : List Byte} {sym : Symbol} (h : sym ∈ bytes.flatMap byteSymbols) :
    (symbolWave c sym).length = 4 * c.ticksPerUnit := by
  obtain ⟨b, -, hb⟩ := List.mem_flatMap.1 h
  obtain ⟨i, -, rfl⟩ := List.mem_map.1 hb
  exact symbolWave_bitSymbol_length c _

theorem byteCells_length (c : Config) (b : Byte) :
    ((byteSymbols b).flatMap (symbolWave c)).length = 32 * c.ticksPerUnit := by
  simp only [byteSymbols, List.map_cons, List.map_nil, List.flatMap_cons, List.flatMap_nil, List.length_append,
    symbolWave_bitSymbol_length, List.length_nil]
  omega

/-- The data cells of `L` bytes last `32*L*S` ticks. -/
theorem replyCells_length (c : Config) (bytes : List Byte) :
    (replyCells c bytes).length = 32 * bytes.length * c.ticksPerUnit := by
  unfold replyCells
  induction bytes with
  | nil => simp
  | cons b rest ih =>
    rw [List.flatMap_cons, List.flatMap_append, List.length_append, ih, byteCells_length, List.length_cons]
    ring

theorem frameTicks_eq (c : Config) (len : Nat) :
    frameTicks c len = 32 * len * c.ticksPerUnit + (symbolWave c .stop).length := by
  rw [symbolWave_length, frameTicks]
  ring

/-- `N` is the length of the waveform (R84). -/
theorem waveform_length (c : Config) (bytes : List Byte) :
    (waveform c bytes).length = frameTicks c bytes.length := by
  rw [waveform_eq_cells, List.length_append, replyCells_length, frameTicks_eq]

/-- The formula of R84 in the data cells. -/
theorem replyCells_getElem? (c : Config) {bytes : List Byte} {j : Nat}
    (hj : j < 32 * bytes.length * c.ticksPerUnit) :
    (replyCells c bytes)[j]? = some (waveAt c bytes j) := by
  have hS : 0 < c.ticksPerUnit := Nat.pos_of_mul_pos_left (Nat.zero_lt_of_lt hj)
  have hcell : j / (4 * c.ticksPerUnit) < 8 * bytes.length := by
    rw [Nat.div_lt_iff_lt_mul (by omega)]
    linarith
  have htick : j % (4 * c.ticksPerUnit) < 4 * c.ticksPerUnit := Nat.mod_lt _ (by omega)
  have hbyte : j / (4 * c.ticksPerUnit) / 8 = j / (32 * c.ticksPerUnit) := by
    rw [Nat.div_div_eq_div_mul]; ring_nf
  have hbit : j / (4 * c.ticksPerUnit) % 8 = j % (32 * c.ticksPerUnit) / (4 * c.ticksPerUnit) := by
    rw [← Nat.mod_mul_right_div_self]; ring_nf
  rw [replyCells, getElem?_flatMap_of_uniform (by omega) (fun _ => dataCell_length), dataCells_getElem? hcell,
    Option.bind_some, symbolWave_getElem? c _ (by rwa [symbolWave_bitSymbol_length]), hbyte, hbit, waveAt,
    frameSymbolAt, frameOffset, if_pos hj, if_pos hj]

/-- The loop of R83 puts out what the formula of R84 says. -/
theorem waveform_getElem? (c : Config) {bytes : List Byte} {j : Nat} (hj : j < frameTicks c bytes.length) :
    (waveform c bytes)[j]? = some (waveAt c bytes j) := by
  rw [waveform_eq_cells, List.getElem?_append, replyCells_length]
  split
  · next h => exact replyCells_getElem? c h
  · next h =>
    have hstop : j - 32 * bytes.length * c.ticksPerUnit < (symbolWave c .stop).length := by
      rw [frameTicks_eq] at hj
      omega
    rw [symbolWave_getElem? c .stop hstop, waveAt, frameSymbolAt, frameOffset, if_neg h, if_neg h]

/-- A STOP that releases the line at all ends released. -/
theorem symbolWave_stop_getLast? {c : Config} (hStop : 1 ≤ c.stopHighTicks) :
    (symbolWave c .stop).getLast? = some .released := by
  have hne : c.stopHighTicks ≠ 0 := by omega
  simp [symbolWave, symbolReleasedTicks, List.getLast?_append, List.getLast?_replicate, hne]

/-- Settles O8: a frame ends with STOP, and STOP with its released ticks. -/
theorem frameEndsReleased : Obligations.FrameEndsReleased := by
  unfold Obligations.FrameEndsReleased
  intro c bytes hc
  rw [← waveform_length, ← List.getLast?_eq_getElem?, waveform_eq_cells, List.getLast?_append,
    symbolWave_stop_getLast? (configSendable_iff.1 hc).2.1, Option.some_or]

end Sys2Proof

/-! ### The Line Driver's operations, run tick by tick (R80 to R83) -/

namespace Sys2Proof.Machine

theorem exec_symbolInstr (sym : Symbol) (s : State) : exec (symbolInstr sym) s = sendSymbol sym s := by
  cases sym <;> rfl

theorem exec_sendCommand (bytes : List Byte) (s : State) :
    exec (.sendCommand bytes) s = execSendCommand bytes s := rfl

theorem execTimes_one (i : Instr) (s : State) : execTimes i 1 s = exec i s := by
  rw [execTimes]
  cases exec i s <;> rfl

/-- The last tick of a run, split off. -/
theorem execTimes_succ_eq (i : Instr) (k : Nat) (s : State) :
    execTimes i (k + 1) s = andThen (execTimes i k s) (exec i) := by
  induction k generalizing s with
  | zero => exact execTimes_one i s
  | succ k ih =>
    rw [execTimes, execTimes]
    cases exec i s with
    | next t => exact ih t
    | fault e => rfl
    | refused e => rfl

/-- A symbol run for `k + 1` ticks has put out the tick `k` behind the one it began with, and left the rest. -/
theorem execTimes_symbolInstr (sym : Symbol) {s : State} (h : s.phase = .send) (k : Nat) :
    execTimes (symbolInstr sym) (k + 1) s = .next (emitSymbol sym (s.txTick + 1 + k) s) := by
  induction k with
  | zero => rw [execTimes_one, exec_symbolInstr, sendSymbol_of_send h]
  | succ k ih =>
    rw [execTimes_succ_eq, ih, andThen_next, exec_symbolInstr, sendSymbol_of_send (by simpa using h)]
    rfl

/-- In a data cell the offset of R84 counts from the cell's first tick. -/
theorem frameOffset_cell {c : Config} {len first k : Nat} (hfirst : first % (4 * c.ticksPerUnit) = 0)
    (hlt : first < 32 * len * c.ticksPerUnit) (hk : k < 4 * c.ticksPerUnit) :
    frameOffset c len (first + k) = k := by
  obtain ⟨q, rfl⟩ := Nat.dvd_of_mod_eq_zero hfirst
  have hq : q < 8 * len := Nat.lt_of_mul_lt_mul_left (a := 4 * c.ticksPerUnit) (by linarith)
  have hin : 4 * c.ticksPerUnit * q + k < 32 * len * c.ticksPerUnit := calc
    _ < 4 * c.ticksPerUnit * (q + 1) := by rw [Nat.mul_succ]; omega
    _ ≤ 4 * c.ticksPerUnit * (8 * len) := Nat.mul_le_mul_left _ hq
    _ = 32 * len * c.ticksPerUnit := by ring
  rw [frameOffset, if_pos hin, Nat.mul_add_mod, Nat.mod_eq_of_lt hk]

/-- In STOP the offset of R84 counts from the end of the data cells. -/
theorem frameOffset_stop (c : Config) (len k : Nat) : frameOffset c len (32 * len * c.ticksPerUnit + k) = k := by
  rw [frameOffset, if_neg (by omega), Nat.add_sub_cancel_left]

/-- A symbol run for `k + 1` ticks from its beginning puts out its own tick `k`. -/
theorem execTimes_symbolInstr_drive (sym : Symbol) {s : State} (h : s.phase = .send) {k : Nat}
    (hk : frameOffset s.cfg s.cmdLen (s.txTick + 1 + k) = k) :
    execTimes (symbolInstr sym) (k + 1) s
      = .next { s with drv := symbolDrive s.cfg sym k, txTick := s.txTick + 1 + k } := by
  rw [execTimes_symbolInstr sym h, emitSymbol, hk]

/-- The symbols with a Low part of one time-unit. -/
theorem symbolDrive_of_ne_zero (c : Config) {sym : Symbol} (h : sym ≠ .zero) (k : Nat) :
    symbolDrive c sym k = if k < c.ticksPerUnit then .low else .released := by
  cases sym with
  | zero => exact absurd rfl h
  | one => rw [symbolDrive, symbolLowTicks, Nat.one_mul]
  | stop => rw [symbolDrive, symbolLowTicks, Nat.one_mul]

/-- Settles O9: the Low part of ZERO is `3*S` ticks by definition. -/
theorem sendZeroDrivesItsCell : Obligations.SendZeroDrivesItsCell := by
  unfold Obligations.SendZeroDrivesItsCell
  intro s k hphase _ hfirst hlt hk
  exact execTimes_symbolInstr_drive .zero hphase (frameOffset_cell hfirst hlt hk)

/-- Settles O10: the Low part of ONE is `S` ticks. -/
theorem sendOneDrivesItsCell : Obligations.SendOneDrivesItsCell := by
  unfold Obligations.SendOneDrivesItsCell
  intro s k hphase _ hfirst hlt hk
  rw [← symbolDrive_of_ne_zero s.cfg (sym := .one) (by decide)]
  exact execTimes_symbolInstr_drive .one hphase (frameOffset_cell hfirst hlt hk)

/-- Settles O11: STOP begins where the data cells end, and its Low part is `S` ticks. -/
theorem sendStopDrivesItsPulse : Obligations.SendStopDrivesItsPulse := by
  unfold Obligations.SendStopDrivesItsPulse
  intro s k hphase hfirst _
  rw [← symbolDrive_of_ne_zero s.cfg (sym := .stop) (by decide)]
  exact execTimes_symbolInstr_drive .stop hphase (by rw [hfirst, frameOffset_stop])

/-- `sendCommand` run for `j + 1` ticks from `IDLE` has put out the tick `j` of the frame (R84), and of the rest has
changed what the frame's first tick changes. -/
theorem execTimes_sendCommand {s : State} {bytes : List Byte} (hphase : s.phase = .idle) (hne : bytes ≠ [])
    (hc : configSendable s.cfg = true) {j : Nat} (hj : j < frameTicks s.cfg bytes.length) :
    execTimes (.sendCommand bytes) (j + 1) s = .next { s with
      phase := .send, gieInhibit := true, cmdLen := bytes.length, txTick := j, drv := waveAt s.cfg bytes j } := by
  induction j with
  | zero => rw [execTimes_one, exec_sendCommand, execSendCommand_of_idle hphase hne hc]; rfl
  | succ j ih =>
    rw [execTimes_succ_eq, ih (Nat.lt_of_succ_lt hj), andThen_next, exec_sendCommand, execSendCommand_of_send rfl hj]
    rfl

/-- Settles O12: the frame's drives are those of the formula of R84. -/
theorem sendCommandDrivesItsFrame : Obligations.SendCommandDrivesItsFrame := by
  unfold Obligations.SendCommandDrivesItsFrame
  intro s bytes j d hphase hne hc hd
  have hj : j < frameTicks s.cfg bytes.length := by
    rw [← waveform_length]
    exact (List.getElem?_eq_some_iff.1 hd).1
  rw [waveform_getElem? s.cfg hj] at hd
  cases hd
  exact execTimes_sendCommand hphase hne hc hj

end Sys2Proof.Machine

/-! ### The receive path of the Polling variant (R102 to R108)

The first-edge wait is one case split on the line. A sample closes a cell in two moves: the registers first
(`closeCell`), then the store of a finished byte, which the bound on the bit count keeps inside the reply buffer. -/

namespace Sys2Proof.Machine

theorem exec_runCommand_of_supported {s : State} {code : Byte} (hcmd : memRead s.mem.cmd 0 = some code)
    (hcode : supportedCode code = true) : exec .runCommand s = transactionTick s :=
  (execRunCommand_eq hcmd).trans (if_pos hcode)

theorem transactionTick_of_firstEdge {s : State} (h : s.phase = .firstEdge) :
    transactionTick s = firstEdgeTick s := by
  simp [transactionTick, h]

theorem transactionTick_of_pollRx {s : State} (h : s.phase = .pollRx) : transactionTick s = pollTick s := by
  simp [transactionTick, h]

theorem firstEdgeTick_of_low {s : State} (h : lineLevel s = .low) :
    firstEdgeTick s = .next { s with phase := .pollRx, cur := 0, nbits := 0, highCount := 0, pollPrev := .low } := by
  simp [firstEdgeTick, h]

theorem firstEdgeTick_of_high {s : State} (h : lineLevel s = .high) : firstEdgeTick s = .next s := by
  simp [firstEdgeTick, h]

/-- Settles O29: the wait ends on a Low line and on nothing else. -/
theorem firstLowLineEndsTheWait : Obligations.FirstLowLineEndsTheWait := by
  unfold Obligations.FirstLowLineEndsTheWait
  intro s code hphase hcmd hcode
  rw [exec_runCommand_of_supported hcmd hcode, transactionTick_of_firstEdge hphase]
  cases hline : lineLevel s with
  | low => exact firstEdgeTick_of_low hline
  | high => exact firstEdgeTick_of_high hline

theorem pollTick_of_high {s : State} (h : lineLevel s = .high) :
    pollTick s = .next { s with highCount := s.highCount + 1, pollPrev := .high } := by
  simp [pollTick, h]

theorem pollTick_of_low_low {s : State} (h : lineLevel s = .low) (hprev : s.pollPrev = .low) :
    pollTick s = .next s := by
  simp [pollTick, h, hprev]

theorem pollTick_of_low_high {s : State} (h : lineLevel s = .low) (hprev : s.pollPrev = .high) :
    pollTick s = bitBoundary s := by
  simp [pollTick, h, hprev]

/-- Shifting a bit in doubles the byte, adds the bit and drops what leaves the byte (R107). -/
theorem shiftIn_toNat (cur : Byte) (bit : Bool) :
    (shiftIn cur bit).toNat = (2 * cur.toNat + if bit then 1 else 0) % 256 := by
  have hbit : (if bit then 1#8 else 0#8).toNat = if bit then 1 else 0 := by cases bit <;> rfl
  have hlt : (if bit then 1 else 0) < 2 ^ 1 := by cases bit <;> decide
  calc (shiftIn cur bit).toNat
      = cur.toNat <<< 1 % 2 ^ 8 ||| (if bit then 1 else 0) % 2 ^ 8 := by
        rw [shiftIn, BitVec.toNat_or, BitVec.toNat_shiftLeft, ← hbit, BitVec.toNat_mod_cancel]
    _ = (cur.toNat <<< 1 + if bit then 1 else 0) % 2 ^ 8 := by
        rw [← Nat.or_mod_two_pow, Nat.shiftLeft_add_eq_or_of_lt hlt]
    _ = (2 * cur.toNat + if bit then 1 else 0) % 256 := by
        rw [Nat.shiftLeft_eq, Nat.mul_comm]; rfl

/-- The registers of the sample step once a cell has closed, before the store: the first half of `bitBoundary`. -/
def closeCell (s : State) : State :=
  { s with
    cur := shiftIn s.cur (thresholdBit s.cfg s.highCount)
    nbits := s.nbits + 1
    highCount := 0
    pollPrev := .low }

theorem bitBoundary_eq (s : State) :
    bitBoundary s = andThen (storeFinishedByte (closeCell s)) fun u =>
      if u.nbits = 8 * u.replyLen then .next (finishPolling u) else .next u := rfl

/-- The store in a state where the reply buffer has a byte for it: the byte is written if it is finished, and nothing
else changes. -/
theorem storeFinishedByte_of_inRange {s : State} (hwf : s.mem.reply.wf = true)
    (hr : s.nbits / 8 - 1 < s.mem.reply.size) :
    ∃ reply, storeFinishedByte s = .next { s with mem := { s.mem with reply := reply } }
      ∧ ∀ i, reply.byteAt i = if s.nbits % 8 = 0 ∧ i = s.nbits / 8 - 1 then s.cur else s.mem.reply.byteAt i := by
  by_cases hz : s.nbits % 8 = 0
  · obtain ⟨reply, hw⟩ : ∃ reply, memWrite s.mem.reply (s.nbits / 8 - 1) s.cur = some reply :=
      ⟨_, memWrite_eq_some hr s.cur⟩
    refine ⟨reply, by simp [storeFinishedByte, bitsPerByte, hz, hw], fun i => ?_⟩
    simpa [hz] using memWrite_byteAt hwf hw i
  · exact ⟨s.mem.reply, by simp [storeFinishedByte, bitsPerByte, hz], fun i => by simp [hz]⟩

/-- A bit boundary short of the reply's end stays inside the reply buffer: it closes the cell, stores, and finishes
when the bit was the last (R103, R108). -/
theorem bitBoundary_of_inRange {s : State} (hwf : s.mem.reply.wf = true) (hn : s.nbits < 8 * s.replyLen)
    (hr : s.replyLen ≤ s.mem.reply.size) :
    ∃ reply, bitBoundary s = .next
        (if s.nbits + 1 = 8 * s.replyLen
          then finishPolling { closeCell s with mem := { s.mem with reply := reply } }
          else { closeCell s with mem := { s.mem with reply := reply } })
      ∧ ∀ i, reply.byteAt i = if (s.nbits + 1) % 8 = 0 ∧ i = (s.nbits + 1) / 8 - 1
          then (closeCell s).cur else s.mem.reply.byteAt i := by
  have hidx : (s.nbits + 1) / 8 - 1 < s.mem.reply.size := by omega
  obtain ⟨reply, hstore, hbytes⟩ := storeFinishedByte_of_inRange (s := closeCell s) hwf hidx
  refine ⟨reply, ?_, hbytes⟩
  rw [bitBoundary_eq, hstore, andThen_next]
  exact (apply_ite Host.Outcome.next _ _ _).symm

theorem closeCell_cur_toNat (s : State) : (closeCell s).cur.toNat
    = (2 * s.cur.toNat + if s.cfg.pollHighThreshold ≤ s.highCount then 1 else 0) % 256 := by
  simp [closeCell, shiftIn_toNat, thresholdBit]

/-- Settles O30: the three samples are the three branches of R103; behind a boundary the call returns if the bit was
the last and goes on otherwise. -/
theorem sampleStep : Obligations.SampleStep := by
  unfold Obligations.SampleStep
  intro s code hphase hwf hcmd hcode hn hr
  obtain ⟨-, hreply, -, -⟩ := memory_wf_iff.1 hwf
  rw [exec_runCommand_of_supported hcmd hcode, transactionTick_of_pollRx hphase]
  refine ⟨pollTick_of_high, pollTick_of_low_low, fun hlow hprev => ?_⟩
  obtain ⟨reply, hstep, hbytes⟩ := bitBoundary_of_inRange hreply hn hr
  rw [pollTick_of_low_high hlow hprev, hstep]
  by_cases hlast : s.nbits + 1 = 8 * s.replyLen
  · rw [if_pos hlast]
    exact ⟨_, rfl, closeCell_cur_toNat s, hbytes, fun _ => ⟨rfl, rfl, rfl, rfl⟩, fun h => absurd hlast h, rfl⟩
  · rw [if_neg hlast]
    exact ⟨_, rfl, closeCell_cur_toNat s, hbytes, fun h => absurd h hlast,
      fun _ => ⟨hphase, rfl, rfl, rfl, rfl⟩, rfl⟩

end Sys2Proof.Machine

/-! ### The edge handler and the finish of the Interrupt variant (R124, R125, R133 to R137) -/

namespace Sys2Proof.Machine

/-- Step 8 in one form for both answers (R135, R182). -/
theorem returnReply_eq (s : State) :
    returnReply s = returnCall (replyComplete s) (if replyComplete s then none else some .timeout) s := by
  cases h : replyComplete s <;> simp [returnReply, h, raiseError]

/-- The finish, field by field, when the copy stays inside both buffers. -/
theorem finishInterrupt_of_copy {s : State} {reply : Buffer}
    (h : copyBytes s.mem.scratch s.mem.reply s.byteCounter = some reply) :
    finishInterrupt s = .next { s with
      armed := false, samplePending := false, cntRunning := false
      compEnable := s.savedEnable, compPending := s.savedPending, suppress := false
      mem := { s.mem with reply := reply }
      success := replyComplete s, done := true
      cause := if replyComplete s then none else some .timeout
      phase := .idle } := by
  simp only [finishInterrupt, releaseSources_fields, disarm_fields, h, returnReply_eq]
  rfl

/-- Settles O25: the copy has room in both buffers, and everything else of the finish is written out. -/
theorem finishDisarmsRestoresCopiesReturns : Obligations.FinishDisarmsRestoresCopiesReturns := by
  unfold Obligations.FinishDisarmsRestoresCopiesReturns
  intro s hwf hbytes hroom
  obtain ⟨-, hreply, -, hscratch⟩ := memory_wf_iff.1 hwf
  obtain ⟨reply, hcopy, -, -, hread⟩ :=
    copyBytes_spec (src := s.mem.scratch) hreply s.byteCounter (hscratch ▸ hbytes) hroom
  exact ⟨_, finishInterrupt_of_copy hcopy, rfl, rfl, rfl, rfl, rfl, rfl, hread, rfl, rfl, rfl, rfl⟩

/-- Line 1 of R138 in the tick of the sample. -/
theorem edgeHandler_of_due {s : State} (hp : s.samplePending = true) (hn : s.now = s.sampleAt) :
    edgeHandler s = handlerBody s := if_pos ⟨hp, hn⟩

/-- Line 1 of R138 in every other tick. -/
theorem edgeHandler_of_notDue {s : State} (h : ¬ (s.samplePending = true ∧ s.now = s.sampleAt)) :
    edgeHandler s = .next (if fallingEdge s = true ∧ edgeGate s = true then enterHandler s else s) := by
  rw [edgeHandler, if_neg h, apply_ite Host.Outcome.next]

/-- Settles O21: with nothing pending and interrupts open, the gate is down to `armed` and the incomplete reply. -/
theorem fallingEdgeEntersHandler : Obligations.FallingEdgeEntersHandler := by
  unfold Obligations.FallingEdgeEntersHandler
  intro s hgie hpending
  have hedge : (fallingEdge s = true ∧ edgeGate s = true) ↔
      (s.armed = true ∧ s.byteCounter < s.replyLen ∧ s.prevLine = .high ∧ lineLevel s = .low) := by
    rw [fallingEdge_iff, edgeGate_iff]
    tauto
  simp only [edgeHandler_of_notDue (s := s) (by simp [hpending]), hedge, enterHandler]

/-- ORing the sampled bit in, as one OR of a byte (R125). -/
theorem orBit_sampledBit (v : Byte) (l : Level) (position : Nat) :
    orBit v (sampledBit l) position = v ||| (if l = .high then 1#8 <<< position else 0#8) := by
  cases l <;> simp [orBit, sampledBit]

/-- Settles O23: the body's store, and the counters on either side of its zero test. -/
theorem handlerBodyTakesTheBit : Obligations.HandlerBodyTakesTheBit := by
  unfold Obligations.HandlerBodyTakesTheBit
  intro s hwf hpending hdue hlow _ hbyte
  obtain ⟨-, -, hswf, hsize⟩ := memory_wf_iff.1 hwf
  obtain ⟨scratch, hwrite, hbody⟩ := handlerBody_of_inRange (s := s) (hsize ▸ hbyte)
  have hread := memWrite_byteAt hswf hwrite
  refine ⟨_, (edgeHandler_of_due hpending hdue).trans hbody, ?_, fun i hi => ?_, fun h1 => ?_, fun h1 => ?_,
    rfl, rfl⟩
  · rw [← orBit_sampledBit]
    exact (hread s.byteCounter).trans (if_pos rfl)
  · exact (hread i).trans (if_neg hi)
  · have hz : s.bitCounter - 1 = 0 := by omega
    exact ⟨if_pos hz, if_pos hz⟩
  · have hz : s.bitCounter - 1 ≠ 0 := by omega
    exact ⟨if_neg hz, if_neg hz⟩

end Sys2Proof.Machine

/-! ### The strategies seen from outside (R130)

`withoutTimer` erases what the timeout strategy is visible in: the parameter itself and the three registers of the
countdown. Every operation but the deadline test commutes with it exactly, and the deadline test does so as long as the
countdown has counted every tick since the accept tick. -/

namespace Sys2Proof.Machine

/-- The engine with `Timestamp` built in and the countdown's registers at rest. -/
def withoutTimer (s : State) : State :=
  { withStrategy .timestamp s with cnt := 0, cntRunning := false, timeoutFlag := false }

@[simp] theorem withoutTimer_frame (s : State) :
    (withoutTimer s).now = s.now ∧ (withoutTimer s).phase = s.phase ∧ (withoutTimer s).txTick = s.txTick
    ∧ (withoutTimer s).cmdLen = s.cmdLen ∧ (withoutTimer s).replyLen = s.replyLen ∧ (withoutTimer s).t0 = s.t0
    ∧ (withoutTimer s).drv = s.drv ∧ (withoutTimer s).prevLine = s.prevLine
    ∧ (withoutTimer s).bitCounter = s.bitCounter ∧ (withoutTimer s).byteCounter = s.byteCounter
    ∧ (withoutTimer s).mem = s.mem ∧ (withoutTimer s).cur = s.cur ∧ (withoutTimer s).nbits = s.nbits
    ∧ (withoutTimer s).highCount = s.highCount ∧ (withoutTimer s).pollPrev = s.pollPrev
    ∧ (withoutTimer s).success = s.success ∧ (withoutTimer s).done = s.done ∧ (withoutTimer s).cause = s.cause
    ∧ (withoutTimer s).armed = s.armed ∧ (withoutTimer s).samplePending = s.samplePending
    ∧ (withoutTimer s).sampleAt = s.sampleAt ∧ (withoutTimer s).gieInhibit = s.gieInhibit
    ∧ (withoutTimer s).suppress = s.suppress ∧ (withoutTimer s).savedEnable = s.savedEnable
    ∧ (withoutTimer s).savedPending = s.savedPending ∧ (withoutTimer s).compEnable = s.compEnable
    ∧ (withoutTimer s).compPending = s.compPending ∧ (withoutTimer s).beginReq = s.beginReq
    ∧ (withoutTimer s).runReq = s.runReq ∧ (withoutTimer s).replySize = s.replySize
    ∧ (withoutTimer s).access = s.access ∧ (withoutTimer s).script = s.script ∧ (withoutTimer s).env = s.env
    ∧ (withoutTimer s).draws = s.draws ∧ (withoutTimer s).report = s.report := by
  simp [withoutTimer, withStrategy]

@[simp] theorem withoutTimer_cfg (s : State) :
    (withoutTimer s).cfg.decoder = s.cfg.decoder ∧ (withoutTimer s).cfg.timeoutStrategy = .timestamp
    ∧ frameTicks (withoutTimer s).cfg = frameTicks s.cfg := ⟨rfl, rfl, rfl⟩

theorem withoutTimer_withStrategy (strategy : TimeoutStrategy) (s : State) :
    withoutTimer (withStrategy strategy s) = withoutTimer s := rfl

theorem hostView_withoutTimer (s : State) : hostView (withoutTimer s) = hostView s := rfl

/-- An update of the state behind a result; a fault or a refusal stays. -/
def mapNext (f : State → State) (r : Result) : Result := andThen r fun s => .next (f s)

@[simp] theorem mapNext_next (f : State → State) (s : State) : mapNext f (.next s) = .next (f s) := rfl

@[simp] theorem mapNext_fault (f : State → State) (e : Fault) : mapNext f (.fault e) = .fault e := rfl

@[simp] theorem mapNext_refused (f : State → State) (e : Refusal) : mapNext f (.refused e) = .refused e := rfl

theorem mapNext_eq_next_iff {f : State → State} {r : Result} {t : State} :
    mapNext f r = .next t ↔ ∃ s, r = .next s ∧ f s = t := by
  simp [mapNext, andThen_next_iff]

theorem mapNext_eq_fault_iff {f : State → State} {r : Result} {e : Fault} :
    mapNext f r = .fault e ↔ r = .fault e := by
  cases r <;> simp

theorem mapNext_eq_refused_iff {f : State → State} {r : Result} {e : Refusal} :
    mapNext f r = .refused e ↔ r = .refused e := by
  cases r <;> simp

theorem mapNext_ite (f : State → State) (p : Prop) [Decidable p] (r r' : Result) :
    mapNext f (if p then r else r') = if p then mapNext f r else mapNext f r' := by
  split <;> rfl

/-- Two operations in a row that commute with an update commute with it together. -/
theorem andThen_mapNext {f : State → State} {r : Result} {g : State → Result}
    (h : ∀ s, r = .next s → g (f s) = mapNext f (g s)) :
    andThen (mapNext f r) g = mapNext f (andThen r g) := by
  cases r with
  | next s => exact h s rfl
  | fault e => rfl
  | refused e => rfl

/-! #### The timer's own operations -/

theorem startTimer_withoutTimer (s : State) : startTimer (withoutTimer s) = withoutTimer (startTimer s) := by
  cases h : s.cfg.timeoutStrategy <;> simp only [startTimer, h] <;> rfl

theorem countdownTick_withoutTimer (s : State) :
    countdownTick (withoutTimer s) = withoutTimer (countdownTick s) := by
  have hrest : countdownTick (withoutTimer s) = withoutTimer s := if_neg (by simp [withoutTimer])
  rcases countdownTick_cases s with ⟨-, h⟩ | ⟨-, -, -, -, h⟩ | ⟨-, -, -, h⟩ <;> rw [hrest, h] <;> rfl

/-! #### The operations that do not look at the timer -/

theorem prepareDecoder_of_interrupt {s : State} (h : s.cfg.decoder = .interrupt) :
    prepareDecoder s = startTimer (resetTransactionState (acquireSources s)) := by
  simp only [prepareDecoder, h]

theorem prepareDecoder_withoutTimer (s : State) :
    prepareDecoder (withoutTimer s) = withoutTimer (prepareDecoder s) := by
  cases h : s.cfg.decoder with
  | polling => simp [prepareDecoder, h]
  | interrupt =>
    rw [prepareDecoder_of_interrupt h, prepareDecoder_of_interrupt (s := withoutTimer s) h]
    exact startTimer_withoutTimer (resetTransactionState (acquireSources s))

theorem execSendCommand_withoutTimer (bytes : List Byte) (s : State) :
    execSendCommand bytes (withoutTimer s) = mapNext withoutTimer (execSendCommand bytes s) := by
  cases hp : s.phase with
  | idle =>
    simp only [execSendCommand, withoutTimer_frame, hp, mapNext_ite]
    rfl
  | send =>
    by_cases hj : s.txTick + 1 < frameTicks s.cfg bytes.length
    · rw [execSendCommand_of_send hp hj, execSendCommand_of_send (s := withoutTimer s) hp hj]
      rfl
    · simp [execSendCommand, hp, hj]
  | uninit => simp [execSendCommand, hp]
  | wait => simp [execSendCommand, hp]
  | firstEdge => simp [execSendCommand, hp]
  | pollRx => simp [execSendCommand, hp]

theorem acceptCommand_withoutTimer (s : State) :
    acceptCommand (withoutTimer s) = mapNext withoutTimer (acceptCommand s) := by
  have hop : operandProblem (withoutTimer s) = operandProblem s := rfl
  cases ho : operandProblem s with
  | some problem => simp only [acceptCommand, hop, ho, mapNext_refused]
  | none =>
    cases hz : zeroFill s.mem.reply s.replySize with
    | none => simp [acceptCommand, hop, ho, hz]
    | some reply =>
      cases hb : firstBytes s.mem.cmd s.mem.cmd.size with
      | none => simp [acceptCommand, hop, ho, hz, hb]
      | some bytes =>
        simp only [acceptCommand, hop, ho, withoutTimer_frame, hz, hb]
        rw [← execSendCommand_withoutTimer, ← prepareDecoder_withoutTimer]
        rfl

theorem handlerBody_withoutTimer (s : State) :
    handlerBody (withoutTimer s) = mapNext withoutTimer (handlerBody s) := by
  by_cases h : s.byteCounter < s.mem.scratch.size
  · obtain ⟨scratch, hw, hb⟩ := handlerBody_of_inRange h
    obtain ⟨scratch', hw', hb'⟩ := handlerBody_of_inRange (s := withoutTimer s) h
    cases hw.symm.trans hw'
    rw [hb, hb']
    rfl
  · simp [handlerBody, memRead, h]

theorem edgeHandler_withoutTimer (s : State) :
    edgeHandler (withoutTimer s) = mapNext withoutTimer (edgeHandler s) := by
  rw [edgeHandler, edgeHandler, mapNext_ite, mapNext_ite, ← handlerBody_withoutTimer]
  rfl

theorem finishInterrupt_withoutTimer (s : State) :
    finishInterrupt (withoutTimer s) = mapNext withoutTimer (finishInterrupt s) := by
  cases hc : copyBytes s.mem.scratch s.mem.reply s.byteCounter with
  | none => simp [finishInterrupt, hc]
  | some reply =>
    rw [finishInterrupt_of_copy hc, finishInterrupt_of_copy (s := withoutTimer s) hc]
    rfl

theorem firstEdgeTick_withoutTimer (s : State) :
    firstEdgeTick (withoutTimer s) = mapNext withoutTimer (firstEdgeTick s) := by
  cases h : lineLevel s with
  | low => rw [firstEdgeTick_of_low h, firstEdgeTick_of_low (s := withoutTimer s) h]; rfl
  | high => rw [firstEdgeTick_of_high h, firstEdgeTick_of_high (s := withoutTimer s) h]; rfl

theorem storeFinishedByte_withoutTimer (s : State) :
    storeFinishedByte (withoutTimer s) = mapNext withoutTimer (storeFinishedByte s) := by
  by_cases hz : s.nbits % bitsPerByte = 0
  · cases hw : memWrite s.mem.reply (s.nbits / bitsPerByte - 1) s.cur with
    | none => simp [storeFinishedByte, hz, hw]
    | some reply => simp [storeFinishedByte, hz, hw]; rfl
  · simp [storeFinishedByte, hz]

theorem bitBoundary_withoutTimer (s : State) :
    bitBoundary (withoutTimer s) = mapNext withoutTimer (bitBoundary s) := by
  have hclose : closeCell (withoutTimer s) = withoutTimer (closeCell s) := rfl
  rw [bitBoundary_eq, bitBoundary_eq, hclose, storeFinishedByte_withoutTimer]
  refine andThen_mapNext fun u _ => ?_
  rw [mapNext_ite]
  rfl

theorem pollTick_withoutTimer (s : State) :
    pollTick (withoutTimer s) = mapNext withoutTimer (pollTick s) := by
  cases h : lineLevel s with
  | high => rw [pollTick_of_high h, pollTick_of_high (s := withoutTimer s) h]; rfl
  | low =>
    cases hp : s.pollPrev with
    | low => rw [pollTick_of_low_low h hp, pollTick_of_low_low (s := withoutTimer s) h hp]; rfl
    | high =>
      rw [pollTick_of_low_high h hp, pollTick_of_low_high (s := withoutTimer s) h hp, bitBoundary_withoutTimer]

theorem sampleSources_withoutTimer (s : State) :
    sampleSources (withoutTimer s) = withoutTimer (sampleSources s) := by
  rcases henv : s.env with _ | ⟨⟨d, rst, _ | ⟨enable, pending⟩⟩, rest⟩
  · simp [sampleSources, henv]
  · simp [sampleSources, henv]
  · cases hsup : s.suppress
    · simp [sampleSources, henv, hsup]; rfl
    · simp [sampleSources, henv, hsup]

theorem presentLine_withoutTimer (lines : List HostLine) (s : State) :
    presentLine (withoutTimer s) lines = withoutTimer (presentLine s lines) := by
  induction lines with
  | nil => rfl
  | cons line rest ih =>
    match line with
    | .idle 0 => exact ih
    | .idle (k + 1) => rfl
    | .begin => rfl
    | .run bytes buffer n => rfl
    | .access a => rfl

theorem presentHost_withoutTimer (s : State) : presentHost (withoutTimer s) = withoutTimer (presentHost s) := by
  by_cases h : busy s = true ∨ requestPresent s = true
  · rw [presentHost_eq_self h, presentHost_eq_self (s := withoutTimer s) h]
  · have h' : ¬ (busy (withoutTimer s) = true ∨ requestPresent (withoutTimer s) = true) := h
    rw [presentHost, presentHost, if_neg h, if_neg h']
    exact presentLine_withoutTimer s.script s

theorem beginTick_withoutTimer (s : State) : beginTick (withoutTimer s) = withoutTimer (beginTick s) :=
  (congrArg presentHost (sampleSources_withoutTimer { s with done := false })).trans (presentHost_withoutTimer _)

theorem hostWrite_withoutTimer (a : HostAccess) (s : State) :
    hostWrite a (withoutTimer s) = mapNext withoutTimer (hostWrite a s) := by
  cases a with
  | decodePoll => rfl
  | writeReply i v =>
    cases hw : memWrite s.mem.reply i v with
    | none => simp [hostWrite, hw]
    | some b => simp [hostWrite, hw]; rfl
  | writeCmd i v =>
    cases hw : memWrite s.mem.cmd i v with
    | none => simp [hostWrite, hw]
    | some b => simp [hostWrite, hw]; rfl

theorem execBegin_withoutTimer (s : State) :
    execBegin (withoutTimer s) = mapNext withoutTimer (execBegin s) := by
  cases hp : s.phase <;> simp only [execBegin, withoutTimer_frame, hp] <;> rfl

/-! #### The deadline -/

/-- Under `Countdown` the countdown runs and has counted `elapsed` ticks. -/
abbrev CountsElapsed (elapsed : Nat) (s : State) : Prop :=
  s.cfg.timeoutStrategy = .countdown →
    s.cntRunning = true ∧ s.timeoutFlag = false ∧ s.cnt = s.cfg.timeoutTicks - elapsed

theorem countsElapsed_startTimer (s : State) : CountsElapsed 0 (startTimer s) := by
  cases h : s.cfg.timeoutStrategy <;> simp [CountsElapsed, startTimer, h]

/-- A tick in which the flag does not rise is counted. -/
theorem countsElapsed_countdownTick {e : Nat} {s : State} (h : CountsElapsed e s)
    (hflag : s.cfg.timeoutStrategy = .countdown → (countdownTick s).timeoutFlag = false) :
    CountsElapsed (e + 1) (countdownTick s) := by
  intro hs
  rw [(countdownTick_frame s).1] at hs
  obtain ⟨hrun, hlow, hcnt⟩ := h hs
  rcases countdownTick_cases s with ⟨hn, -⟩ | ⟨-, -, -, -, he⟩ | ⟨-, -, -, he⟩
  · exact absurd ⟨hs, hrun⟩ hn
  · rw [he] at hflag
    exact absurd (hflag hs) (by simp)
  · rw [he]
    exact ⟨hrun, hlow, by simp only [hcnt]; omega⟩

/-- With interrupts open the flag rises in the tick the deadline is reached: both strategies test the same (R129,
R132). -/
theorem timedOut_countdownTick {s : State} (h : CountsElapsed (s.now - 1 - s.t0) s) (ht0 : s.t0 < s.now)
    (hgie : s.gieInhibit = false) :
    timedOut (countdownTick s) = decide (s.cfg.timeoutTicks ≤ s.now - s.t0) := by
  cases hs : s.cfg.timeoutStrategy with
  | timestamp => simp [timedOut, hs]
  | countdown =>
    obtain ⟨hrun, hlow, hcnt⟩ := h hs
    rcases countdownTick_cases s with ⟨hn, -⟩ | ⟨-, -, hz, -, he⟩ | ⟨-, -, hz, he⟩
    · exact absurd ⟨hs, hrun⟩ hn
    · have : s.cfg.timeoutTicks ≤ s.now - s.t0 := by omega
      simp [he, timedOut, hs, this]
    · have : ¬ s.cfg.timeoutTicks ≤ s.now - s.t0 := fun hle => hz ⟨by omega, hgie⟩
      simp [he, timedOut, hs, hlow, this]

/-- The accept tick is past, and the countdown has counted every tick behind it. -/
abbrev DeadlineHeld (s : State) : Prop := s.t0 < s.now ∧ CountsElapsed (s.now - 1 - s.t0) s

/-- What the two strategies need in order to agree: in flight the deadline is held, with the expiry handler held off in
`SEND` and free to run in `WAIT`. -/
structure DeadlineInv (s : State) : Prop where
  sending : s.phase = .send → s.cfg.decoder = .interrupt → s.gieInhibit = true ∧ DeadlineHeld s
  waiting : s.phase = .wait → s.gieInhibit = false ∧ DeadlineHeld s

theorem deadlineInv_of_phase {s : State} (hs : s.phase ≠ .send) (hw : s.phase ≠ .wait) : DeadlineInv s :=
  ⟨fun h => absurd h hs, fun h => absurd h hw⟩

theorem deadlineInv_beginTick {s : State} (hi : DeadlineInv s) : DeadlineInv (beginTick s) :=
  ⟨by simpa [DeadlineHeld, CountsElapsed] using hi.sending, by simpa [DeadlineHeld, CountsElapsed] using hi.waiting⟩

/-- Line 1 of R138 does not touch the deadline. -/
theorem edgeHandler_deadline {s t : State} (h : edgeHandler s = .next t) :
    t.phase = s.phase ∧ t.gieInhibit = s.gieInhibit ∧ (DeadlineHeld s → DeadlineHeld t) := by
  rcases edgeHandler_next h with ⟨-, -, hb⟩ | ⟨-, -, -, rfl⟩ | ⟨-, -, rfl⟩
  · obtain ⟨-, scratch, -, rfl⟩ := handlerBody_next hb
    exact ⟨rfl, rfl, id⟩
  · exact ⟨rfl, rfl, id⟩
  · exact ⟨rfl, rfl, id⟩

theorem waitTests_withoutTimer {s : State}
    (h : timedOut s = decide (s.cfg.timeoutTicks ≤ s.now - s.t0)) :
    waitTests (withoutTimer s) = mapNext withoutTimer (waitTests s) := by
  rw [waitTests, waitTests, h, finishInterrupt_withoutTimer, mapNext_ite, mapNext_ite]
  rfl

theorem waitTick_withoutTimer {s : State} (hgie : s.gieInhibit = false) (hd : DeadlineHeld s) :
    waitTick (withoutTimer s) = mapNext withoutTimer (waitTick s) := by
  rw [waitTick, waitTick, edgeHandler_withoutTimer]
  refine andThen_mapNext fun u hu => ?_
  obtain ⟨-, hgie', hd'⟩ := edgeHandler_deadline hu
  obtain ⟨ht0, hcount⟩ := hd' hd
  rw [countdownTick_withoutTimer]
  refine waitTests_withoutTimer ?_
  rw [timedOut_countdownTick hcount ht0 (hgie'.trans hgie)]
  simp

theorem receiveEntry_withoutTimer {s : State} (hd : s.cfg.decoder = .interrupt → DeadlineHeld s) :
    receiveEntry (withoutTimer s) = mapNext withoutTimer (receiveEntry s) := by
  cases h : s.cfg.decoder with
  | interrupt =>
    simp only [receiveEntry, withoutTimer_cfg, h]
    exact waitTick_withoutTimer (s := enterWait s) rfl (hd h)
  | polling =>
    simp only [receiveEntry, withoutTimer_cfg, h]
    exact firstEdgeTick_withoutTimer (enterFirstEdge s)

theorem sendTick_withoutTimer {s : State} (hd : s.cfg.decoder = .interrupt → DeadlineHeld s) :
    sendTick (withoutTimer s) = mapNext withoutTimer (sendTick s) := by
  by_cases hj : s.txTick + 1 < frameTicks s.cfg s.cmdLen
  · have hbytes : commandBytes (withoutTimer s) = commandBytes s := rfl
    cases hc : commandBytes s with
    | none => simp [sendTick, hj, hbytes, hc]
    | some bytes =>
      simp only [sendTick, withoutTimer_frame, withoutTimer_cfg, hj, if_true, hbytes, hc,
        execSendCommand_withoutTimer]
      exact andThen_mapNext fun u _ => congrArg Host.Outcome.next (countdownTick_withoutTimer u)
  · simp only [sendTick, withoutTimer_frame, withoutTimer_cfg, hj, if_false]
    exact receiveEntry_withoutTimer hd

theorem transactionTick_withoutTimer {s : State} (hi : DeadlineInv s) :
    transactionTick (withoutTimer s) = mapNext withoutTimer (transactionTick s) := by
  cases hp : s.phase <;> simp only [transactionTick, withoutTimer_frame, hp]
  case uninit => rfl
  case idle => exact acceptCommand_withoutTimer s
  case send => exact sendTick_withoutTimer fun h => (hi.sending hp h).2
  case wait => exact waitTick_withoutTimer (hi.waiting hp).1 (hi.waiting hp).2
  case firstEdge => exact firstEdgeTick_withoutTimer s
  case pollRx => exact pollTick_withoutTimer s

theorem rejectedCode_withoutTimer {code : Byte} {s : State} (h : commandCode s.mem = some code) :
    rejectedCode code (withoutTimer s) = mapNext withoutTimer (rejectedCode code s) := by
  cases hp : s.phase <;> simp only [rejectedCode, withoutTimer_frame, hp]
  case idle =>
    rw [withCode_of_code h, withCode_of_code (s := withoutTimer s) h]
    rfl
  all_goals rfl

theorem execRunCommand_withoutTimer {s : State} (hi : DeadlineInv s) :
    execRunCommand (withoutTimer s) = mapNext withoutTimer (execRunCommand s) := by
  cases hc : commandCode s.mem with
  | none => simp [execRunCommand, hc]
  | some code =>
    rw [execRunCommand_eq hc, execRunCommand_eq (s := withoutTimer s) hc, mapNext_ite,
      transactionTick_withoutTimer hi, rejectedCode_withoutTimer hc]

theorem tickWork_withoutTimer {s : State} (hi : DeadlineInv s) :
    tickWork (withoutTimer s) = mapNext withoutTimer (tickWork s) := by
  have hfetch : fetch (withoutTimer s) = fetch s := rfl
  cases hf : fetch s <;> simp only [tickWork, hfetch, hf]
  case run i =>
    rcases fetch_run hf with ⟨rfl, -⟩ | ⟨rfl, -⟩ | ⟨rfl, -⟩ | ⟨r0, r1, r2, r3, rfl, -⟩
    · exact execBegin_withoutTimer s
    · exact execRunCommand_withoutTimer hi
    · exact execRunCommand_withoutTimer hi
    · rfl
  case write a => exact hostWrite_withoutTimer a s
  case quiet => rfl
  case stop r => rfl

/-- A tick does the same with and without the timer, seen without it. In a tick of reset the registers of the countdown
take free values (R29), so there only the erased states agree. -/
theorem step_withoutTimer {s : State} (hi : DeadlineInv s) :
    mapNext withoutTimer (step (withoutTimer s)) = mapNext withoutTimer (step s) := by
  cases hr : rstLevel s with
  | true =>
    have hr' : rstLevel (withoutTimer s) = true := hr
    simp only [step, hr, hr', if_true]
    rfl
  | false =>
    have hr' : rstLevel (withoutTimer s) = false := hr
    simp only [step, hr, hr', Bool.false_eq_true, if_false]
    rw [beginTick_withoutTimer, tickWork_withoutTimer (deadlineInv_beginTick hi)]
    cases tickWork (beginTick s) <;> rfl

/-! #### The deadline is held in every run -/

theorem countdownTick_timeoutFlag_of_inhibited {s : State} (h : s.gieInhibit = true) :
    (countdownTick s).timeoutFlag = s.timeoutFlag := by
  rcases countdownTick_cases s with ⟨-, he⟩ | ⟨-, -, -, hopen, -⟩ | ⟨-, -, -, he⟩
  · rw [he]
  · rw [h] at hopen; cases hopen
  · rw [he]

/-- A tick behind the accept tick in which the flag does not rise leaves the deadline held. -/
theorem deadlineHeld_countdownTick {s : State} (hd : DeadlineHeld s)
    (hflag : s.cfg.timeoutStrategy = .countdown → (countdownTick s).timeoutFlag = false) :
    DeadlineHeld (endTick (countdownTick s)) := by
  obtain ⟨ht0, hcount⟩ := hd
  have hnext := countsElapsed_countdownTick hcount hflag
  have hold : s.now - 1 - s.t0 + 1 = s.now + 1 - 1 - s.t0 := by omega
  rw [hold] at hnext
  exact ⟨by simpa using Nat.lt_succ_of_lt ht0, by simpa [CountsElapsed] using hnext⟩

/-- The accept tick starts the countdown, with nothing counted yet (R121). -/
theorem acceptCommand_deadline {s t : State} (hp : s.phase = .idle) (h : acceptCommand s = .next t) :
    DeadlineInv (endTick t) := by
  obtain ⟨-, reply, bytes, -, -, hsend⟩ := acceptCommand_next h
  rcases execSendCommand_next hsend with ⟨-, -, -, rfl⟩ | ⟨hphase, -⟩
  · refine ⟨fun _ hdec => ⟨rfl, by simp, ?_⟩, by simp⟩
    rw [prepareDecoder_of_interrupt (by simpa using hdec)]
    simpa [CountsElapsed] using countsElapsed_startTimer
      (resetTransactionState (acquireSources (latchOperands { s with mem := { s.mem with reply := reply } })))
  · simp [hp] at hphase

theorem waitTick_deadline {s t : State} (hp : s.phase = .wait) (hgie : s.gieInhibit = false) (hd : DeadlineHeld s)
    (h : waitTick s = .next t) : DeadlineInv (endTick t) := by
  obtain ⟨u, hu, ht⟩ := waitTick_next h
  obtain ⟨hp', hgie', hd'⟩ := edgeHandler_deadline hu
  rcases waitTests_next ht with ⟨-, hf⟩ | ⟨-, hopen, rfl⟩
  · obtain ⟨reply, -, rfl⟩ := finishInterrupt_next hf
    exact deadlineInv_of_phase (by simp) (by simp)
  · refine ⟨by simp [hp', hp], fun _ => ⟨by simp [hgie', hgie], ?_⟩⟩
    refine deadlineHeld_countdownTick (hd' hd) fun hs => ?_
    simpa [timedOut, hs] using hopen

theorem sendTick_deadline {s t : State} (hp : s.phase = .send) (hi : DeadlineInv s) (h : sendTick s = .next t) :
    DeadlineInv (endTick t) := by
  rcases sendTick_next h with ⟨-, bytes, u, -, hu, rfl⟩ | ⟨-, hr⟩
  · rcases execSendCommand_next hu with ⟨hidle, -⟩ | ⟨-, -, rfl⟩
    · rw [hp] at hidle; cases hidle
    · refine ⟨fun _ hdec => ?_, by simp [hp]⟩
      obtain ⟨hgie, hd⟩ := hi.sending hp (by simpa using hdec)
      refine ⟨by simp [hgie], deadlineHeld_countdownTick hd fun hs => ?_⟩
      rw [countdownTick_timeoutFlag_of_inhibited (by simpa using hgie)]
      exact (hd.2 hs).2.1
  · cases hdec : s.cfg.decoder with
    | interrupt =>
      simp only [receiveEntry, hdec] at hr
      exact waitTick_deadline (s := enterWait s) rfl rfl (hi.sending hp hdec).2 hr
    | polling =>
      simp only [receiveEntry, hdec] at hr
      rcases firstEdgeTick_next hr with ⟨-, rfl⟩ | ⟨-, rfl⟩
      · exact deadlineInv_of_phase (by simp) (by simp)
      · exact deadlineInv_of_phase (by simp) (by simp)

theorem bitBoundary_phase {s t : State} (h : bitBoundary s = .next t) : t.phase = s.phase ∨ t.phase = .idle := by
  rw [bitBoundary_eq] at h
  obtain ⟨u, hu, ht⟩ := andThen_next_iff.1 h
  have hphase : u.phase = s.phase := by
    rcases storeFinishedByte_next hu with ⟨-, reply, -, rfl⟩ | ⟨-, rfl⟩ <;> rfl
  split at ht
  · cases ht; exact .inr rfl
  · cases ht; exact .inl hphase

theorem pollTick_phase {s t : State} (h : pollTick s = .next t) : t.phase = s.phase ∨ t.phase = .idle := by
  rcases pollTick_next h with ⟨-, rfl⟩ | ⟨-, -, rfl⟩ | ⟨-, -, hb⟩
  · exact .inl rfl
  · exact .inl rfl
  · exact bitBoundary_phase hb

theorem transactionTick_deadline {s t : State} (hi : DeadlineInv s) (h : transactionTick s = .next t) :
    DeadlineInv (endTick t) := by
  cases hp : s.phase <;> simp only [transactionTick, hp] at h
  case uninit => cases h
  case idle => exact acceptCommand_deadline hp h
  case send => exact sendTick_deadline hp hi h
  case wait => exact waitTick_deadline hp (hi.waiting hp).1 (hi.waiting hp).2 h
  case firstEdge =>
    rcases firstEdgeTick_next h with ⟨-, rfl⟩ | ⟨-, rfl⟩ <;>
      exact deadlineInv_of_phase (by simp [hp]) (by simp [hp])
  case pollRx =>
    rcases pollTick_phase h with ht | ht <;>
      exact deadlineInv_of_phase (by simp [ht, hp]) (by simp [ht, hp])

/-- Outside a transaction there is no deadline to hold. -/
theorem deadlineInv_of_notBusy {s : State} (h : busy s = false) : DeadlineInv s := by
  refine deadlineInv_of_phase (fun hp => ?_) (fun hp => ?_) <;> simp [busy, hp] at h

theorem tickWork_deadline {s t : State} (hi : DeadlineInv s) (h : tickWork s = .next t) :
    DeadlineInv (endTick t) := by
  rcases tickWork_next h with ⟨-, hx⟩ | ⟨-, hx⟩ | ⟨_, _, _, _, hf, rfl⟩ | ⟨_, hf, hx⟩ | ⟨hf, rfl⟩
  · obtain ⟨-, rfl⟩ := execBegin_next hx
    exact deadlineInv_of_notBusy rfl
  · obtain ⟨code, -, ⟨-, ht⟩ | ⟨-, hp, rfl⟩⟩ := execRunCommand_next hx
    · exact transactionTick_deadline hi ht
    · exact deadlineInv_of_phase (by simp [hp]) (by simp [hp])
  · rcases fetch_run hf with ⟨hi, -⟩ | ⟨hi, -⟩ | ⟨hi, -⟩ | ⟨_, _, _, _, -, -, -, -, hbusy, -⟩
    · cases hi
    · cases hi
    · cases hi
    · exact deadlineInv_of_notBusy hbusy
  · obtain ⟨-, -, -, hbusy⟩ := fetch_write hf
    rcases hostWrite_next hx with ⟨-, rfl⟩ | ⟨i, v, b, -, -, rfl⟩ | ⟨i, v, b, -, -, rfl⟩ <;>
      exact deadlineInv_of_notBusy hbusy
  · obtain ⟨-, -, -, hbusy⟩ := fetch_quiet hf
    exact deadlineInv_of_notBusy hbusy

theorem step_deadlineInv {s t : State} (hi : DeadlineInv s) (h : step s = .next t) : DeadlineInv t := by
  rcases step_next h with ⟨-, rfl⟩ | ⟨-, u, hu, rfl⟩
  · exact deadlineInv_of_notBusy rfl
  · exact tickWork_deadline (deadlineInv_beginTick hi) hu

/-! #### Runs -/

theorem runTicks_succ (k : Nat) (s : State) : runTicks (k + 1) s = andThen (step s) (runTicks k) := by
  cases h : step s <;> simp only [runTicks, Host.Core.run, core, h] <;> rfl

theorem deadlineInv_withoutTimer {s : State} (hi : DeadlineInv s) : DeadlineInv (withoutTimer s) := by
  have hcount : DeadlineHeld s → DeadlineHeld (withoutTimer s) := fun hd => ⟨hd.1, nofun⟩
  exact ⟨fun hp hdec => (hi.sending hp hdec).imp id hcount, fun hp => (hi.waiting hp).imp id hcount⟩

/-- Over any number of ticks the host sees what it would see without the timer. -/
theorem resultView_runTicks_withoutTimer (k : Nat) {s : State} (hi : DeadlineInv s) :
    resultView (runTicks k (withoutTimer s)) = resultView (runTicks k s) := by
  induction k generalizing s with
  | zero => exact congrArg Host.Outcome.next (hostView_withoutTimer s)
  | succ k ih =>
    rw [runTicks_succ, runTicks_succ]
    have hstep := step_withoutTimer hi
    cases ht : step s with
    | next t =>
      obtain ⟨u, hu, hsame⟩ := mapNext_eq_next_iff.1 (hstep.trans (congrArg _ ht))
      rw [hu]
      calc resultView (runTicks k u)
          = resultView (runTicks k (withoutTimer u)) :=
            (ih (step_deadlineInv (deadlineInv_withoutTimer hi) hu)).symm
        _ = resultView (runTicks k t) := by rw [hsame, ih (step_deadlineInv hi ht)]
    | fault e => rw [mapNext_eq_fault_iff.1 (hstep.trans (congrArg _ ht))]
    | refused e => rw [mapNext_eq_refused_iff.1 (hstep.trans (congrArg _ ht))]

/-- Settles O54: either engine looks like the one engine without the timer, and before the first call there is no
deadline to hold. -/
theorem strategiesLookTheSameToTheHost : Obligations.StrategiesLookTheSameToTheHost := by
  unfold Obligations.StrategiesLookTheSameToTheHost
  intro s k hphase _
  have hview (strategy : TimeoutStrategy) :
      resultView (runTicks k (withStrategy strategy s)) = resultView (runTicks k (withoutTimer s)) := by
    rw [← withoutTimer_withStrategy strategy]
    refine (resultView_runTicks_withoutTimer k (deadlineInv_of_notBusy ?_)).symm
    rcases hphase with hp | hp <;> simp [busy, withStrategy, hp]
  rw [hview, hview]

end Sys2Proof.Machine

/-! ### Validation and the commands (R152, R154 to R160)

Every row of the command byte comes to one of two forms: the tick of the transaction, or the rejection. -/

namespace Sys2Proof.Machine

theorem supportedCode_iff {code : Byte} : supportedCode code = true ↔ code = 0x00 ∨ code = 0x01 ∨ code = 0xFF := by
  simp [supportedCode, or_assoc]

theorem supportedCode_eq_false_iff {code : Byte} :
    supportedCode code = false ↔ code ≠ 0x00 ∧ code ≠ 0x01 ∧ code ≠ 0xFF := by
  simp [← Bool.not_eq_true, supportedCode_iff]

/-- On an idle engine a rejected code returns at once. -/
theorem rejectedCode_of_idle {s : State} {code : Byte} (hphase : s.phase = .idle)
    (hcmd : memRead s.mem.cmd 0 = some code) :
    rejectedCode code s = .next (raiseError .unsupportedCommand s) := by
  simp only [rejectedCode, hphase]
  exact withCode_of_code hcmd

/-- A rejection is in `success`, `done` and the tag alone (R152). -/
theorem raiseError_frame (cause : Cause) (s : State) :
    raiseError cause s = { s with success := false, done := true, cause := (raiseError cause s).cause } := rfl

theorem exec_runCommand_of_unsupported {s : State} {code : Byte} (hcmd : memRead s.mem.cmd 0 = some code)
    (hcode : supportedCode code = false) : exec .runCommand s = rejectedCode code s :=
  (execRunCommand_eq hcmd).trans (if_neg (by simp [hcode]))

/-- With an accepted code on the port, `runCommand` is the row of that code. -/
theorem exec_runCommand_eq_acceptedCode {s : State} {code : Byte} (hcmd : memRead s.mem.cmd 0 = some code)
    (hcode : supportedCode code = true) : exec .runCommand s = acceptedCode code s :=
  (exec_runCommand_of_supported hcmd hcode).trans (withCode_of_code hcmd).symm

/-- Settles O15: READ, WRITE and the row of every other code are the rejection of their code, and `runCommand` is the
same one. -/
theorem rejectedCodesTouchNothing : Obligations.RejectedCodesTouchNothing := by
  unfold Obligations.RejectedCodesTouchNothing
  intro s i code hrow hphase hcmd
  have hexec : exec i s = rejectedCode code s := by
    rcases hrow with ⟨rfl, rfl⟩ | ⟨rfl, rfl⟩ | ⟨rfl, -⟩ <;> rfl
  have hcode : supportedCode code = false := by
    rcases hrow with ⟨-, rfl⟩ | ⟨-, rfl⟩ | ⟨-, hlow, hhigh⟩
    · rfl
    · rfl
    · refine supportedCode_eq_false_iff.2 ⟨?_, ?_, ?_⟩ <;> rintro rfl <;> simp at hlow hhigh
  have hrejected := rejectedCode_of_idle hphase hcmd
  exact ⟨_, hexec.trans hrejected, (exec_runCommand_of_unsupported hcmd hcode).trans hrejected, raiseError_frame _ s⟩

/-- Settles O16: byte 0 decides between the rejection and the row of its code. -/
theorem validationByFirstByte : Obligations.ValidationByFirstByte := by
  unfold Obligations.ValidationByFirstByte
  intro s code hphase hcmd
  refine ⟨fun hother => ?_, ?_, ?_, ?_⟩
  · exact ⟨_, (exec_runCommand_of_unsupported hcmd (supportedCode_eq_false_iff.2 hother)).trans
      (rejectedCode_of_idle hphase hcmd), raiseError_frame _ s⟩
  all_goals
    rintro rfl
    exact exec_runCommand_eq_acceptedCode hcmd rfl

/-- The first byte of the button word is its high half (R65). -/
theorem decodePollReply_buttons_toNat (r0 r1 r2 r3 : Byte) :
    (decodePollReply r0 r1 r2 r3).buttons.toNat = r0.toNat * 256 + r1.toNat := by
  rw [decodePollReply, BitVec.toNat_append, ← Nat.shiftLeft_add_eq_or_of_lt r1.isLt, Nat.shiftLeft_eq]

/-- The two's complement value of a byte (R65). -/
theorem byte_toInt_eq (b : Byte) :
    b.toInt = if b.toNat < 128 then (b.toNat : Int) else b.toNat - 256 := by
  have h := BitVec.toInt_eq_toNat_cond b
  split <;> split at h <;> omega

/-- Settles O19: the three fields are those of `decodePollReply`, and nothing but the report is written. -/
theorem decodePollFields : Obligations.DecodePollFields := by
  unfold Obligations.DecodePollFields
  intro r0 r1 r2 r3 s
  exact ⟨{ s with report := decodePollReply r0 r1 r2 r3 }, rfl, decodePollReply_buttons_toNat r0 r1 r2 r3,
    byte_toInt_eq r2, byte_toInt_eq r3, rfl⟩

end Sys2Proof.Machine

/-! ### The decoder and the encoder of a word (R60 to R73)

`refDecode` is inverted: a piece cut out by `splitAtFalls` never goes from Released to Low inside, so its length and
its Low run say all of it. -/

namespace Sys2Proof

/-- The ticks of a symbol in a piece with no fall inside: a Low run and a released one. -/
def IsPiece (piece : List Drive) : Prop :=
  ∃ low released, piece = List.replicate low .low ++ List.replicate released .released

theorem isPiece_low_cons {piece : List Drive} (h : IsPiece piece) : IsPiece (.low :: piece) := by
  obtain ⟨low, released, rfl⟩ := h
  exact ⟨low + 1, released, rfl⟩

/-- A released tick in front of a piece that does not begin Low. -/
theorem isPiece_released_cons {piece : List Drive} (h : IsPiece piece) (hhead : piece.head? ≠ some .low) :
    IsPiece (.released :: piece) := by
  obtain ⟨low, released, rfl⟩ := h
  cases low with
  | zero => exact ⟨0, released + 1, by simp [List.replicate_succ]⟩
  | succ low => simp [List.replicate_succ] at hhead

/-- The pieces have no fall inside. -/
theorem isPiece_of_mem_splitAtFalls (wave : List Drive) : ∀ piece ∈ splitAtFalls wave, IsPiece piece := by
  induction wave with
  | nil => simp [splitAtFalls]
  | cons d rest ih =>
    have hsingle : IsPiece [d] := by
      cases d
      · exact ⟨1, 0, rfl⟩
      · exact ⟨0, 1, rfl⟩
    rw [splitAtFalls]
    split
    · simpa using hsingle
    · next piece more hsplit =>
      rw [hsplit, List.forall_mem_cons] at ih
      obtain ⟨hpiece, hmore⟩ := ih
      split
      · simpa using ⟨hsingle, hpiece, hmore⟩
      · next hcut =>
        refine List.forall_mem_cons.2 ⟨?_, hmore⟩
        cases d with
        | low => exact isPiece_low_cons hpiece
        | released => exact isPiece_released_cons hpiece fun h => hcut ⟨rfl, h⟩

/-- Nothing is lost in the cuts. -/
theorem splitAtFalls_flatten (wave : List Drive) : (splitAtFalls wave).flatten = wave := by
  induction wave with
  | nil => rfl
  | cons d rest ih =>
    rw [splitAtFalls]
    split
    · next h => rw [h] at ih; simpa using ih
    · next h =>
      rw [h] at ih
      split <;> simpa using ih

theorem lowRun_piece (low released : Nat) :
    lowRun (List.replicate low .low ++ List.replicate released .released) = low := by
  induction low with
  | zero => cases released <;> rfl
  | succ n ih => rw [List.replicate_succ, List.cons_append, lowRun, ih]

/-- A piece with the length and the Low run of a symbol is that symbol. -/
theorem IsPiece.eq_symbolWave {piece : List Drive} (h : IsPiece piece) {c : Config} {sym : Symbol}
    (hlow : lowRun piece = symbolLowTicks c sym)
    (hlen : piece.length = symbolLowTicks c sym + symbolReleasedTicks c sym) : piece = symbolWave c sym := by
  obtain ⟨low, released, rfl⟩ := h
  rw [lowRun_piece] at hlow
  have hrel : released = symbolReleasedTicks c sym := by simpa [hlow] using hlen
  rw [symbolWave, hlow, hrel]

theorem eq_symbolWave_of_pieceBit {c : Config} {piece : List Drive} {bit : Bool} (hp : IsPiece piece)
    (h : pieceBit c piece = some bit) : piece = symbolWave c (bitSymbol bit) := by
  rw [pieceBit] at h
  split at h
  · next hlen =>
    split at h
    · next hlow =>
      cases h
      refine hp.eq_symbolWave ?_ ?_ <;> simp only [bitSymbol, symbolLowTicks, symbolReleasedTicks, if_true] <;> omega
    · split at h
      · next hlow =>
        cases h
        refine hp.eq_symbolWave ?_ ?_ <;>
          simp only [bitSymbol, symbolLowTicks, symbolReleasedTicks, Bool.false_eq_true, if_false] <;> omega
      · cases h
  · cases h

theorem eq_symbolWave_of_isStopPiece {c : Config} {piece : List Drive} (hp : IsPiece piece)
    (h : isStopPiece c piece = true) : piece = symbolWave c .stop := by
  simp only [isStopPiece, Bool.and_eq_true, decide_eq_true_eq] at h
  obtain ⟨hlen, hlow⟩ := h
  refine hp.eq_symbolWave ?_ ?_ <;> simp only [symbolLowTicks, symbolReleasedTicks] <;> omega

/-- Pieces that read as bits are the cells of those bits with a STOP behind them. -/
theorem eq_bitCells_of_pieceBits {c : Config} :
    ∀ {pieces : List (List Drive)} {bits : List Bool}, (∀ piece ∈ pieces, IsPiece piece) →
      pieceBits c pieces = some bits → pieces = (bits.map bitSymbol ++ [Symbol.stop]).map (symbolWave c)
  | [], _, _, h => by simp [pieceBits] at h
  | [last], bits, hp, h => by
    rw [pieceBits] at h
    split at h
    · next hstop =>
      cases h
      simpa using eq_symbolWave_of_isStopPiece (hp last (by simp)) hstop
    · cases h
  | piece :: next :: more, bits, hp, h => by
    obtain ⟨hpiece, hrest⟩ := List.forall_mem_cons.1 hp
    rw [pieceBits] at h
    split at h
    · next b bs hbit hbits =>
      cases h
      rw [eq_symbolWave_of_pieceBit hpiece hbit, eq_bitCells_of_pieceBits hrest hbits]
      rfl
    · cases h
    · simp

/-- Packing loses no bit: checked for each of the 256 bytes. -/
theorem byteBits_byteOfBits (b7 b6 b5 b4 b3 b2 b1 b0 : Bool) :
    byteBits (byteOfBits b7 b6 b5 b4 b3 b2 b1 b0) = [b7, b6, b5, b4, b3, b2, b1, b0] := by
  revert b7 b6 b5 b4 b3 b2 b1 b0; decide

theorem eq_byteBits_of_packBits (bits : List Bool) :
    ∀ {bytes : List Byte}, packBits bits = some bytes → bits = bytes.flatMap byteBits := by
  induction bits using packBits.induct with
  | case1 => intro bytes h; cases h; rfl
  | case2 b7 b6 b5 b4 b3 b2 b1 b0 rest ih =>
    intro bytes h
    rw [packBits, Option.map_eq_some_iff] at h
    obtain ⟨tail, htail, rfl⟩ := h
    rw [List.flatMap_cons, byteBits_byteOfBits, ← ih htail]
    rfl
  | case3 bits h1 h2 =>
    intro bytes h
    rw [packBits] at h
    · cases h
    · exact h1
    · exact h2

/-- The converse of R89: a wave that decodes to a command is the waveform of that command. -/
theorem eq_waveform_of_refDecode {c : Config} {wave : List Drive} {bytes : List Byte}
    (h : refDecode c wave = some bytes) : wave = waveform c bytes := by
  obtain ⟨bits, hbits, hpack⟩ := Option.bind_eq_some_iff.1 h
  have hpieces := eq_bitCells_of_pieceBits (isPiece_of_mem_splitAtFalls wave) hbits
  rw [← splitAtFalls_flatten wave, hpieces, eq_byteBits_of_packBits bits hpack, ← frameSymbols_eq_map_bitSymbol,
    waveform, List.flatMap_def]

theorem tableConfig_sendable : Machine.configSendable tableConfig = true := by decide

theorem refDecode_waveform_table (bytes : List Byte) :
    refDecode tableConfig (waveform tableConfig bytes) = some bytes :=
  referenceDecoderRecoversCommand tableConfig bytes tableConfig_sendable

theorem wf_unsupported_iff {code : Byte} : (Instr.unsupported code).wf = true ↔ code ∉ namedCodes := by
  by_cases h : code ∈ namedCodes <;> simp [Instr.wf, Instr.illFormed, h]

/-- A code without a row of its own is the row of every other code (R69). -/
theorem decodeCommand_of_notNamed {code : Byte} (h : code ∉ namedCodes) : decodeCommand code = .unsupported code := by
  simp only [namedCodes, List.mem_cons, List.not_mem_nil, or_false, not_or] at h
  obtain ⟨h0, h1, h2, h3, h4⟩ := h
  rw [decodeCommand, if_neg h0, if_neg h1, if_neg h2, if_neg h3, if_neg h4]

/-- Settles O1: a constant or a copied operand in every layer but the frame's, which is R89 at one tick a time-unit. -/
theorem decodeOfEncode : Obligations.DecodeOfEncode := by
  unfold Obligations.DecodeOfEncode
  intro i hwf
  cases i with
  | unsupported code =>
    show Except.ok (decodeCommand code) = _
    rw [decodeCommand_of_notNamed (wf_unsupported_iff.1 hwf)]
  | sendCommand bytes =>
    cases bytes with
    | nil => cases hwf
    | cons b rest => simp only [encode, decode, refDecode_waveform_table]
  | _ => rfl

/-- The row of a command byte is well formed, and the byte is its word. -/
theorem encode_decodeCommand (code : Byte) :
    (decodeCommand code).wf = true ∧ encode (decodeCommand code) = .command code := by
  by_cases hnamed : code ∈ namedCodes
  · simp only [namedCodes, List.mem_cons, List.not_mem_nil, or_false] at hnamed
    rcases hnamed with rfl | rfl | rfl | rfl | rfl <;> exact ⟨rfl, rfl⟩
  · rw [decodeCommand_of_notNamed hnamed]
    exact ⟨wf_unsupported_iff.2 hnamed, rfl⟩

/-- Settles O2: layer by layer; the frame's word is recovered from the pieces it was cut into. -/
theorem encodeOfDecode : Obligations.EncodeOfDecode := by
  unfold Obligations.EncodeOfDecode
  intro w i h
  cases w with
  | command code => cases h; exact encode_decodeCommand code
  | ports b r =>
    cases b <;> cases r <;> cases h <;> exact ⟨rfl, rfl⟩
  | symbol units =>
    rw [decode] at h
    split at h
    · next hu => cases h; exact ⟨rfl, by rw [hu]; rfl⟩
    · split at h
      · next hu => cases h; exact ⟨rfl, by rw [hu]; rfl⟩
      · split at h
        · next hu => cases h; exact ⟨rfl, by rw [hu]; rfl⟩
        · cases h
  | frame units =>
    rw [decode] at h
    split at h
    · next hd => cases h; exact ⟨rfl, congrArg Code.frame (eq_waveform_of_refDecode hd).symm⟩
    · cases h
    · cases h
  | reply r0 r1 r2 r3 => cases h; exact ⟨rfl, rfl⟩

/-! #### Words as numbers -/

/-- The bit a time-unit is written as. -/
def unitBit (d : Drive) : Nat := if d = .released then 1 else 0

theorem unitBit_le (d : Drive) : unitBit d ≤ 1 := by cases d <;> decide

theorem wordOfUnits_append_singleton (units : List Drive) (d : Drive) :
    wordOfUnits (units ++ [d]) = 2 * wordOfUnits units + unitBit d := by
  simp [wordOfUnits, unitBit]

theorem wordOfUnits_lt (units : List Drive) : wordOfUnits units < 2 ^ units.length := by
  induction units using List.reverseRecOn with
  | nil => decide
  | append_singleton units d ih =>
    have hd := unitBit_le d
    rw [wordOfUnits_append_singleton, List.length_append, List.length_singleton, Nat.pow_succ]
    omega

/-- Reading the number back, its last bit first. -/
theorem unitsOfWord_succ (n w : Nat) :
    unitsOfWord (n + 1) w = unitsOfWord n (w / 2) ++ [if w.testBit 0 then .released else .low] := by
  simp only [unitsOfWord, List.range_succ, List.map_append, List.map_cons, List.map_nil]
  congr 1
  · refine List.map_congr_left fun i hi => ?_
    have hi : i < n := List.mem_range.1 hi
    rw [show n + 1 - 1 - i = (n - 1 - i) + 1 by omega, Nat.testBit_succ]
  · simp

/-- A pattern is read back from its number. -/
theorem unitsOfWord_wordOfUnits (units : List Drive) : unitsOfWord units.length (wordOfUnits units) = units := by
  induction units using List.reverseRecOn with
  | nil => rfl
  | append_singleton units d ih =>
    have hdiv : (2 * wordOfUnits units + unitBit d) / 2 = wordOfUnits units := by
      have := unitBit_le d
      omega
    have hbit : (if (2 * wordOfUnits units + unitBit d).testBit 0 then Drive.released else .low) = d := by
      cases d <;> simp [unitBit]
    rw [List.length_append, List.length_singleton, unitsOfWord_succ, wordOfUnits_append_singleton, hdiv, ih, hbit]

theorem codeOfWord_ports (b r : Bool) : codeOfWord 2 (2 * b.toNat + r.toNat) = some (.ports b r) := by
  cases b <;> cases r <;> rfl

theorem codeOfWord_symbol {units : List Drive} (h : units.length = 3 ∨ units.length = 4) :
    codeOfWord units.length (wordOfUnits units) = some (.symbol units) := by
  have h2 : units.length ≠ 2 := by omega
  rw [codeOfWord, if_neg (Nat.not_le.2 (wordOfUnits_lt units)), if_neg h2, if_pos h, unitsOfWord_wordOfUnits]

theorem codeOfWord_command (code : Byte) : codeOfWord 8 code.toNat = some (.command code) := by
  rw [codeOfWord, if_neg (Nat.not_le.2 code.isLt), BitVec.ofNat_toNat, BitVec.setWidth_eq]
  rfl

theorem codeOfWord_reply (r0 r1 r2 r3 : Byte) :
    codeOfWord 32 (r0.toNat + 256 * r1.toNat + 65536 * r2.toNat + 16777216 * r3.toNat)
      = some (.reply r0 r1 r2 r3) := by
  have h0 := r0.isLt
  have h1 := r1.isLt
  have h2 := r2.isLt
  have h3 := r3.isLt
  have hbyte (n : Nat) (r : Byte) (h : n % 256 = r.toNat) : BitVec.ofNat 8 n = r :=
    BitVec.eq_of_toNat_eq (by simpa using h)
  rw [codeOfWord, if_neg (by omega), if_neg (by decide), if_neg (by decide), if_neg (by decide), if_pos rfl,
    hbyte _ r0 (by omega), hbyte _ r1 (by omega), hbyte _ r2 (by omega), hbyte _ r3 (by omega)]

theorem codeOfWord_frame {units : List Drive} (hlen : 35 ≤ units.length) (hmod : units.length % 32 = 3) :
    codeOfWord units.length (wordOfUnits units) = some (.frame units) := by
  have h2 : units.length ≠ 2 := by omega
  have h34 : ¬ (units.length = 3 ∨ units.length = 4) := by omega
  have h8 : units.length ≠ 8 := by omega
  have h32 : units.length ≠ 32 := by omega
  rw [codeOfWord, if_neg (Nat.not_le.2 (wordOfUnits_lt units)), if_neg h2, if_neg h34, if_neg h8, if_neg h32,
    if_pos ⟨hlen, hmod⟩, unitsOfWord_wordOfUnits]

/-- The number of an instruction's word reads as that word again. -/
theorem codeOfWord_encodeTableWord {i : Instr} (hwf : i.wf = true) :
    codeOfWord (encodeTableWord i).1 (encodeTableWord i).2 = some (encode i) := by
  cases i with
  | begin => exact codeOfWord_ports true false
  | runCommand => exact codeOfWord_ports false true
  | sendZero => exact codeOfWord_symbol (.inr rfl)
  | sendOne => exact codeOfWord_symbol (.inr rfl)
  | sendStop => exact codeOfWord_symbol (.inl rfl)
  | sendCommand bytes =>
    have hlen : (waveform tableConfig bytes).length = 32 * bytes.length + 3 := by
      rw [waveform_length]
      simp [frameTicks, tableConfig]
    have hpos : bytes.length ≠ 0 := by
      intro h
      cases List.length_eq_zero_iff.1 h
      cases hwf
    exact codeOfWord_frame (by omega) (by omega)
  | decodePoll r0 r1 r2 r3 => exact codeOfWord_reply r0 r1 r2 r3
  | identify => exact codeOfWord_command _
  | poll => exact codeOfWord_command _
  | read => exact codeOfWord_command _
  | write => exact codeOfWord_command _
  | reset => exact codeOfWord_command _
  | unsupported code => exact codeOfWord_command code

theorem decodeTableWord_of_code {nbits w : Nat} {code : Code} {i : Instr} (hcode : codeOfWord nbits w = some code)
    (hi : decode code = .ok i) : decodeTableWord nbits w = some i := by
  simp only [decodeTableWord, hcode, hi]

/-- Settles O3: the number reads as the word (`codeOfWord_encodeTableWord`), the word as the instruction (O1). -/
theorem tableNumberRoundTrip : Obligations.TableNumberRoundTrip := by
  unfold Obligations.TableNumberRoundTrip
  intro i hwf
  exact decodeTableWord_of_code (codeOfWord_encodeTableWord hwf) (decodeOfEncode i hwf)

/-- Settles O4: the named codes by the map itself; a code in the range between them is none of them. -/
theorem opcodeMapByCode : Obligations.OpcodeMapByCode := by
  unfold Obligations.OpcodeMapByCode
  refine ⟨rfl, rfl, rfl, rfl, rfl, fun code hlow hhigh => ?_, rfl, rfl, rfl⟩
  have hnamed : code ∉ namedCodes := by
    simp only [namedCodes, List.mem_cons, List.not_mem_nil, or_false, not_or]
    refine ⟨?_, ?_, ?_, ?_, ?_⟩ <;> rintro rfl <;> simp at hlow hhigh
  exact congrArg Except.ok (decodeCommand_of_notNamed hnamed)

/-- Settles O5: each number is that of its instruction's word, so O3 reads it back. -/
theorem wordsWrittenOut : Obligations.WordsWrittenOut := by
  unfold Obligations.WordsWrittenOut
  have hread (i : Instr) (hwf : i.wf = true) {n w : Nat} (h : encodeTableWord i = (n, w)) :
      decodeTableWord n w = some i := by
    simpa [h] using tableNumberRoundTrip i hwf
  exact ⟨hread _ rfl rfl, hread _ rfl rfl, hread _ rfl rfl, hread _ rfl rfl, hread _ rfl rfl,
    hread (.sendCommand [0x01]) rfl (by decide), hread _ rfl rfl, hread _ rfl rfl⟩

/-- Settles O7: the length of the waveform, and its drive by R84. -/
theorem waveformByFormula : Obligations.WaveformByFormula := by
  unfold Obligations.WaveformByFormula
  intro c bytes _
  exact ⟨waveform_length c bytes, fun j hj => waveform_getElem? c hj⟩

end Sys2Proof

/-! ### The work of a tick (R7, R10, R150 to R153)

Which instruction a tick runs is read off the ports and the phase; what precedes it is the same for every tick in which
the host is blocked or already stands on the ports. -/

namespace Sys2Proof.Machine

theorem busy_eq_false_iff {s : State} : busy s = false ↔ s.phase = .uninit ∨ s.phase = .idle := by
  cases h : s.phase <;> simp [busy, h]

theorem busy_eq_true_iff {s : State} :
    busy s = true ↔ s.phase = .send ∨ s.phase = .wait ∨ s.phase = .firstEdge ∨ s.phase = .pollRx := by
  cases h : s.phase <;> simp [busy, h]

theorem busy_congr {s t : State} (h : t.phase = s.phase) : busy t = busy s := by
  rw [busy, busy, h]

@[simp] theorem busy_beginTick (s : State) : busy (beginTick s) = busy s := busy_congr (by simp)

/-- A host that is blocked, or already stands on the ports, adds nothing to the tick's beginning. -/
theorem beginTick_of_blocked {s : State} (h : busy s = true ∨ requestPresent s = true) :
    beginTick s = sampleSources { s with done := false } := by
  refine presentHost_eq_self ?_
  rwa [busy_congr (s := s) (by simp), show requestPresent (sampleSources { s with done := false }) = requestPresent s by
    simp [requestPresent]]

theorem step_of_noRst {s : State} (h : rstLevel s = false) :
    step s = andThen (tickWork (beginTick s)) fun t => .next (endTick t) := by
  simp [step, h]

theorem tickWork_of_run {s : State} {i : Instr} (h : fetch s = .run i) : tickWork s = exec i s := by
  simp [tickWork, h]

theorem tickWork_of_stop {s : State} {r : Refusal} (h : fetch s = .stop r) : tickWork s = .refused r := by
  simp [tickWork, h]

/-- The two request ports are a word when one of them is high. -/
theorem decode_ports_ok {b r : Bool} (h : b ≠ r) : ∃ i, decode (.ports b r) = .ok i := by
  cases b <;> cases r <;> first | exact ⟨_, rfl⟩ | exact absurd rfl h

theorem ne_of_decode_ports {b r : Bool} {i : Instr} (h : decode (.ports b r) = .ok i) : b ≠ r := by
  cases b <;> cases r <;> simp [decode] at h ⊢

theorem requestPresent_of_call {s : State} (h : s.beginReq ≠ s.runReq) : requestPresent s = true := by
  cases hb : s.beginReq with
  | true => simp [requestPresent, hb]
  | false =>
    have hr : s.runReq = true := by simpa [hb] using h.symm
    simp [requestPresent, hr]

theorem fetch_of_call {s : State} {i : Instr} (haccess : s.access = none)
    (h : decode (.ports s.beginReq s.runReq) = .ok i) :
    fetch s = if busy s then .stop .requestWhileBusy else .run i := by
  simp [fetch, h, haccess]

theorem fetch_of_noCall {s : State} (hb : s.beginReq = false) (hr : s.runReq = false) : fetch s = fetchQuiet s := by
  simp [fetch, hb, hr, decode]

theorem fetch_of_busy {s : State} (hbusy : busy s = true) (hports : PortsQuiet s) : fetch s = .run .runCommand := by
  obtain ⟨hb, hr, ha⟩ := hports
  rw [fetch_of_noCall hb hr]
  simp [fetchQuiet, hbusy, ha]

/-- The ports of a tick whose beginning adds nothing. -/
theorem sampleSources_ports (s : State) :
    (sampleSources { s with done := false }).beginReq = s.beginReq
      ∧ (sampleSources { s with done := false }).runReq = s.runReq
      ∧ (sampleSources { s with done := false }).access = s.access
      ∧ (sampleSources { s with done := false }).mem = s.mem := by
  simp

/-- The beginning of a tick in flight: the ports and the buffers stay. -/
theorem beginTick_of_busy {s : State} (h : busy s = true) :
    (beginTick s).mem = s.mem ∧ (beginTick s).replySize = s.replySize ∧ (beginTick s).script = s.script
      ∧ (beginTick s).beginReq = s.beginReq ∧ (beginTick s).runReq = s.runReq
      ∧ (beginTick s).access = s.access := by
  simp [beginTick_of_blocked (.inl h)]

theorem portsQuiet_beginTick {s : State} (hbusy : busy s = true) : PortsQuiet (beginTick s) ↔ PortsQuiet s := by
  simp [PortsQuiet, beginTick_of_busy hbusy]

/-- Settles O32: one port high is a word of the two; the host's request blocks its script. -/
theorem stepRunsTheRequestedInstruction : Obligations.StepRunsTheRequestedInstruction := by
  unfold Obligations.StepRunsTheRequestedInstruction
  intro s i hrst hbusy haccess hi
  have hbegin := beginTick_of_blocked (.inr (requestPresent_of_call (ne_of_decode_ports hi)))
  refine ⟨hbegin, ?_⟩
  obtain ⟨hb, hr, ha, -⟩ := sampleSources_ports s
  rw [← hbegin] at hb hr ha
  have hfetch : fetch (beginTick s) = .run i := by
    rw [fetch_of_call (ha.trans haccess) (by rw [hb, hr]; exact hi), busy_beginTick, hbusy]
    simp
  rw [step_of_noRst hrst, tickWork_of_run hfetch]

/-- A step in flight is a tick of `runCommand`. -/
theorem step_of_busy {s : State} (hrst : rstLevel s = false) (hbusy : busy s = true) (hports : PortsQuiet s) :
    step s = andThen (exec .runCommand (beginTick s)) fun t => .next (endTick t) := by
  rw [step_of_noRst hrst,
    tickWork_of_run (fetch_of_busy (by simpa using hbusy) ((portsQuiet_beginTick hbusy).2 hports))]

theorem exec_runCommand_eq_row {s : State} {code : Byte} (h : memRead s.mem.cmd 0 = some code) :
    exec .runCommand s = exec (decodeCommand code) s := by
  show execRunCommand s = _
  rw [execRunCommand, show commandCode s.mem = some code from h]
  rcases decodeCommand_cases code with ⟨-, hd⟩ | ⟨-, hd⟩ | ⟨-, hd⟩ | ⟨-, hd⟩ | ⟨-, hd⟩ | ⟨-, hd⟩ <;>
    simp only [hd] <;> rfl

/-- Settles O33: in flight the beginning of the tick leaves the command byte where it is. -/
theorem stepRunsTheTransactionInFlight : Obligations.StepRunsTheTransactionInFlight := by
  unfold Obligations.StepRunsTheTransactionInFlight
  intro s code hrst hbusy hports hcmd
  refine ⟨step_of_busy hrst hbusy hports, exec_runCommand_eq_row ?_⟩
  rwa [(beginTick_of_busy hbusy).1]

theorem replyWord_of_size {b : Buffer} (h : 4 ≤ b.size) :
    replyWord b = some (.reply (b.byteAt 0) (b.byteAt 1) (b.byteAt 2) (b.byteAt 3)) := by
  simp [replyWord, memRead_eq_some (show 0 < b.size by omega), memRead_eq_some (show 1 < b.size by omega),
    memRead_eq_some (show 2 < b.size by omega), memRead_eq_some (show 3 < b.size by omega)]

/-- Settles O35: the four bytes are the word of that `decodePoll`. -/
theorem stepRunsDecodePoll : Obligations.StepRunsDecodePoll := by
  unfold Obligations.StepRunsDecodePoll
  intro s hrst hbusy hbegin hrun haccess hsize
  have hblocked := beginTick_of_blocked (.inr (by simp [requestPresent, haccess] : requestPresent s = true))
  obtain ⟨hb, hr, ha, hmem⟩ := sampleSources_ports s
  rw [← hblocked] at hb hr ha hmem
  have hfetch : fetch (beginTick s) = .run (.decodePoll (s.mem.reply.byteAt 0) (s.mem.reply.byteAt 1)
      (s.mem.reply.byteAt 2) (s.mem.reply.byteAt 3)) := by
    rw [fetch_of_noCall (hb.trans hbegin) (hr.trans hrun)]
    simp [fetchQuiet, hbusy, ha.trans haccess, hmem, replyWord_of_size hsize, fetchWord, decode]
  rw [step_of_noRst hrst, tickWork_of_run hfetch]

/-- Settles O36: in flight the ports are looked at before the transaction goes on. -/
theorem requestInFlightIsRefused : Obligations.RequestInFlightIsRefused := by
  unfold Obligations.RequestInFlightIsRefused
  intro s hrst hbusy
  obtain ⟨-, -, -, hb, hr, ha⟩ := beginTick_of_busy hbusy
  have hbusy' : busy (beginTick s) = true := by simpa using hbusy
  have hstop {r : Refusal} (h : fetch (beginTick s) = .stop r) : step s = .refused r := by
    rw [step_of_noRst hrst, tickWork_of_stop h, andThen_refused]
  refine ⟨fun haccess hcall => hstop ?_, fun hbegin hrun haccess => hstop ?_⟩
  · obtain ⟨i, hi⟩ := decode_ports_ok hcall
    rw [fetch_of_call (ha.trans haccess) (by rw [hb, hr]; exact hi), if_pos hbusy']
  · obtain ⟨a, hsome⟩ := Option.ne_none_iff_exists'.1 haccess
    rw [fetch_of_noCall (hb.trans hbegin) (hr.trans hrun)]
    simp [fetchQuiet, hbusy, ha.trans hsome]

/-! #### Host operations -/

theorem execBegin_of_notBusy {s : State} (h : busy s = false) : execBegin s = .next (initialise s) := by
  rcases busy_eq_false_iff.1 h with hp | hp <;> simp [execBegin, hp]

theorem execBegin_of_busy {s : State} (h : busy s = true) : execBegin s = .refused .requestWhileBusy := by
  rcases busy_eq_true_iff.1 h with hp | hp | hp | hp <;> simp [execBegin, hp]

theorem initialise_idempotent (s : State) : initialise (initialise s) = initialise s := rfl

/-- Settles O14: `begin` is `initialise` outside a transaction, which ends in `IDLE` and is idempotent. -/
theorem beginInitialises : Obligations.BeginInitialises := by
  unfold Obligations.BeginInitialises
  intro s
  refine ⟨fun hphase => ?_, execBegin_of_busy⟩
  have hbegin := execBegin_of_notBusy (busy_eq_false_iff.2 hphase)
  refine ⟨hbegin, fun t ht => ?_⟩
  cases hbegin.symm.trans ht
  exact (execBegin_of_notBusy rfl).trans (congrArg _ (initialise_idempotent s))

theorem exec_runCommand_of_empty {s : State} (h : s.mem.cmd.size = 0) :
    exec .runCommand s = .refused .emptyCommand := by
  have hnone : commandCode s.mem = none := by simp [commandCode, memRead, h]
  show execRunCommand s = _
  simp [execRunCommand, hnone]

theorem exec_runCommand_of_uninit {s : State} {code : Byte} (hcmd : memRead s.mem.cmd 0 = some code)
    (hphase : s.phase = .uninit) : exec .runCommand s = .refused .runBeforeBegin := by
  refine (execRunCommand_eq hcmd).trans ?_
  split
  · simp [transactionTick, hphase]
  · simp [rejectedCode, hphase]

/-- An accepted code with a problem in its operands is refused for that problem (R151, R140). -/
theorem exec_runCommand_of_problem {s : State} {code : Byte} {problem : Refusal}
    (hcmd : memRead s.mem.cmd 0 = some code) (hcode : supportedCode code = true) (hphase : s.phase = .idle)
    (h : operandProblem s = some problem) : exec .runCommand s = .refused problem := by
  rw [exec_runCommand_of_supported hcmd hcode]
  simp [transactionTick, hphase, acceptCommand, h]

theorem replySizeLegal_iff {n : Nat} : replySizeLegal n = true ↔ 1 ≤ n ∧ n ≤ 8 := by
  rw [replySizeLegal, Bool.and_eq_true, decide_eq_true_iff, decide_eq_true_iff]
  rfl

theorem replySizeLegal_eq_false_iff {n : Nat} : replySizeLegal n = false ↔ n = 0 ∨ 8 < n := by
  rw [← Bool.not_eq_true, replySizeLegal_iff]
  omega

/-- Settles O17: each premise makes one of the checks in front of the transaction fail. -/
theorem callsWithoutMeaningAreRefused : Obligations.CallsWithoutMeaningAreRefused := by
  unfold Obligations.CallsWithoutMeaningAreRefused
  intro s
  refine ⟨fun _ => exec_runCommand_of_empty, fun code hcmd => ⟨exec_runCommand_of_uninit hcmd, ?_, ?_, ?_⟩⟩
  · intro hphase hcode hn
    refine exec_runCommand_of_problem hcmd hcode hphase ?_
    simp [operandProblem, replySizeLegal_eq_false_iff.2 hn]
  · intro hphase hcode hn1 hn8 hroom
    refine exec_runCommand_of_problem hcmd hcode hphase ?_
    simp [operandProblem, replySizeLegal_iff.2 ⟨hn1, hn8⟩, hroom]
  · intro hphase hcode hn1 hn8 hroom hdecoder hsource
    refine exec_runCommand_of_problem hcmd hcode hphase ?_
    simp [operandProblem, replySizeLegal_iff.2 ⟨hn1, hn8⟩, Nat.not_lt.2 hroom, bitSourceGiven, hdecoder, hsource]

/-- Settles O20: the mark is 5, and a buffer of a byte has a first byte. -/
theorem genuineMarkIsFive : Obligations.GenuineMarkIsFive := by
  unfold Obligations.GenuineMarkIsFive
  intro b hb
  simp [isGenuine, memRead_eq_some hb, genuineMark, ← BitVec.toNat_inj]

/-! #### The two handlers -/

/-- Settles O22: the gate is closed by the pending run. -/
theorem edgeDuringRunIsMissed : Obligations.EdgeDuringRunIsMissed := by
  unfold Obligations.EdgeDuringRunIsMissed
  intro s hpending hnow
  rw [edgeHandler_of_notDue (by simp [hnow]), if_neg (by simp [edgeGate_iff, hpending])]

/-- Settles O24: the handler's condition is the count at most 1 with interrupts open. -/
theorem countdownExpiresOnceInterruptsAreOpen : Obligations.CountdownExpiresOnceInterruptsAreOpen := by
  unfold Obligations.CountdownExpiresOnceInterruptsAreOpen
  intro s hstrategy hrunning
  rcases countdownTick_cases s with ⟨hn, -⟩ | ⟨-, -, hle, hopen, h⟩ | ⟨-, -, hn, h⟩
  · exact absurd ⟨hstrategy, hrunning⟩ hn
  · refine ⟨fun h2 => by omega, fun _ hgie => ?_, fun _ _ => h⟩
    rw [hopen] at hgie
    cases hgie
  · have hzero (hle : s.cnt ≤ 1) : s.cnt - 1 = 0 := by omega
    refine ⟨fun _ => h, fun hle _ => by rw [h, hzero hle], fun hle hopen => absurd ⟨hle, hopen⟩ hn⟩

/-! #### Reset -/

/-- Settles O40: the fields of `rstTick`. -/
theorem resetPortResetsTheEngine : Obligations.ResetPortResetsTheEngine := by
  unfold Obligations.ResetPortResetsTheEngine
  intro s hrst
  exact ⟨rstTick s, by simp [step, hrst], rfl, ⟨rfl, rfl, rfl, rfl, rfl, rfl⟩, rfl, rfl, rfl, rfl, rfl, rfl, rfl, rfl⟩

/-- Settles O41: the fields of `State.reset`. -/
theorem resetStateHasTheTablesValues : Obligations.ResetStateHasTheTablesValues := by
  unfold Obligations.ResetStateHasTheTablesValues
  exact ⟨rfl, ⟨rfl, rfl, rfl, rfl, rfl, rfl⟩, rfl, rfl, rfl⟩

/-- Outside a transaction the invariant is the canonical form and the idle invariant of R30. -/
theorem inv_of_notBusy {s : State} (hwf : s.mem.wf = true) (hbusy : busy s = false) (h : Passive s) : Inv s := by
  rcases busy_eq_false_iff.1 hbusy with hp | hp <;> simpa only [Inv, hp, hwf, true_and, reduceCtorEq, false_implies,
    and_true, forall_const] using h

/-- Settles O42: the state of R29 is passive and its memory in canonical form. -/
theorem resetMeetsTheInvariant : Obligations.ResetMeetsTheInvariant := by
  unfold Obligations.ResetMeetsTheInvariant
  exact inv_of_notBusy reset_memory_wf rfl ⟨rfl, rfl, rfl, rfl, rfl, rfl⟩

/-! #### What the work of a tick leaves alone -/

/-- What no tick of a transaction touches: the configuration, the clock, the inputs, the command and the host. -/
structure Outside (s t : State) : Prop where
  cfg : t.cfg = s.cfg
  now : t.now = s.now
  env : t.env = s.env
  cmd : t.mem.cmd = s.mem.cmd
  script : t.script = s.script
  report : t.report = s.report
  replySize : t.replySize = s.replySize

theorem Outside.refl (s : State) : Outside s s := ⟨rfl, rfl, rfl, rfl, rfl, rfl, rfl⟩

theorem Outside.trans {s t u : State} (h : Outside s t) (h' : Outside t u) : Outside s u :=
  ⟨h'.cfg.trans h.cfg, h'.now.trans h.now, h'.env.trans h.env, h'.cmd.trans h.cmd, h'.script.trans h.script,
    h'.report.trans h.report, h'.replySize.trans h.replySize⟩

theorem prepareDecoder_cmd (s : State) : (prepareDecoder s).mem.cmd = s.mem.cmd := by
  cases h : s.cfg.decoder <;> simp [prepareDecoder, h]

theorem outside_countdownTick (s : State) : Outside s (countdownTick s) := by
  constructor <;> simp

theorem outside_acceptCommand {s t : State} (hphase : s.phase = .idle) (h : acceptCommand s = .next t) :
    Outside s t := by
  obtain ⟨-, reply, bytes, -, -, hsend⟩ := acceptCommand_next h
  rcases execSendCommand_next hsend with ⟨-, -, -, rfl⟩ | ⟨hp, -⟩
  · constructor <;> simp [prepareDecoder_cmd]
  · simp [hphase] at hp

theorem outside_edgeHandler {s t : State} (h : edgeHandler s = .next t) : Outside s t := by
  rcases edgeHandler_next h with ⟨-, -, hb⟩ | ⟨-, -, -, rfl⟩ | ⟨-, -, rfl⟩
  · obtain ⟨-, scratch, -, rfl⟩ := handlerBody_next hb
    constructor <;> rfl
  · constructor <;> rfl
  · exact .refl _

theorem outside_waitTick {s t : State} (h : waitTick s = .next t) : Outside s t := by
  obtain ⟨u, hu, ht⟩ := waitTick_next h
  refine (outside_edgeHandler hu).trans ((outside_countdownTick u).trans ?_)
  rcases waitTests_next ht with ⟨-, hf⟩ | ⟨-, -, rfl⟩
  · obtain ⟨reply, -, rfl⟩ := finishInterrupt_next hf
    constructor <;> simp
  · exact .refl _

theorem outside_firstEdgeTick {s t : State} (h : firstEdgeTick s = .next t) : Outside s t := by
  rcases firstEdgeTick_next h with ⟨-, rfl⟩ | ⟨-, rfl⟩ <;> constructor <;> rfl

theorem outside_bitBoundary {s t : State} (h : bitBoundary s = .next t) : Outside s t := by
  rw [bitBoundary_eq] at h
  obtain ⟨u, hu, ht⟩ := andThen_next_iff.1 h
  have hstore : Outside s u := by
    rcases storeFinishedByte_next hu with ⟨-, reply, -, rfl⟩ | ⟨-, rfl⟩ <;> constructor <;> rfl
  refine hstore.trans ?_
  split at ht <;> cases ht <;> constructor <;> rfl

theorem outside_pollTick {s t : State} (h : pollTick s = .next t) : Outside s t := by
  rcases pollTick_next h with ⟨-, rfl⟩ | ⟨-, -, rfl⟩ | ⟨-, -, hb⟩
  · constructor <;> rfl
  · exact .refl _
  · exact outside_bitBoundary hb

theorem outside_sendTick {s t : State} (hphase : s.phase = .send) (h : sendTick s = .next t) : Outside s t := by
  rcases sendTick_next h with ⟨-, bytes, u, -, hu, rfl⟩ | ⟨-, hr⟩
  · rcases execSendCommand_next hu with ⟨hp, -⟩ | ⟨-, -, rfl⟩
    · rw [hphase] at hp; cases hp
    · exact .trans (by constructor <;> rfl) (outside_countdownTick _)
  · cases hd : s.cfg.decoder <;> simp only [receiveEntry, hd] at hr
    · exact .trans (by constructor <;> rfl) (outside_firstEdgeTick hr)
    · exact .trans (by constructor <;> rfl) (outside_waitTick hr)

theorem outside_transactionTick {s t : State} (h : transactionTick s = .next t) : Outside s t := by
  cases hp : s.phase <;> simp only [transactionTick, hp] at h
  case uninit => cases h
  case idle => exact outside_acceptCommand hp h
  case send => exact outside_sendTick hp h
  case wait => exact outside_waitTick h
  case firstEdge => exact outside_firstEdgeTick h
  case pollRx => exact outside_pollTick h

/-- The work of a tick touches neither the configuration nor the clock nor the inputs. -/
theorem tickWork_frame {s t : State} (h : tickWork s = .next t) : t.cfg = s.cfg ∧ t.now = s.now ∧ t.env = s.env := by
  rcases tickWork_next h with ⟨-, hx⟩ | ⟨-, hx⟩ | ⟨_, _, _, _, -, rfl⟩ | ⟨_, -, hx⟩ | ⟨-, rfl⟩
  · obtain ⟨-, rfl⟩ := execBegin_next hx
    exact ⟨rfl, rfl, rfl⟩
  · obtain ⟨code, -, ⟨-, ht⟩ | ⟨-, -, rfl⟩⟩ := execRunCommand_next hx
    · have ho := outside_transactionTick ht
      exact ⟨ho.cfg, ho.now, ho.env⟩
    · simp
  · exact ⟨rfl, rfl, rfl⟩
  · rcases hostWrite_next hx with ⟨-, rfl⟩ | ⟨_, _, _, -, -, rfl⟩ | ⟨_, _, _, -, -, rfl⟩ <;> exact ⟨rfl, rfl, rfl⟩
  · exact ⟨rfl, rfl, rfl⟩

theorem controllerDrive_congr {s t : State} (henv : t.env = s.env) (hnow : t.now = s.now) :
    controllerDrive t = controllerDrive s := by
  rw [controllerDrive, controllerDrive, henv, hnow]

/-- A step without reset, with what its work leaves alone. -/
theorem step_next_of_noRst {s t : State} (hrst : rstLevel s = false) (h : step s = .next t) :
    ∃ u, tickWork (beginTick s) = .next u ∧ t = endTick u ∧ u.cfg = s.cfg ∧ u.now = s.now ∧ u.env = s.env := by
  rcases step_next h with ⟨hr, -⟩ | ⟨-, u, hu, rfl⟩
  · rw [hrst] at hr; cases hr
  · have hf := tickWork_frame hu
    simp only [beginTick_frame] at hf
    exact ⟨u, hu, rfl, hf⟩

/-- Settles O37: the end of the tick records the line, whose two drives the work of the tick leaves readable. -/
theorem everyTickRecordsTheLine : Obligations.EveryTickRecordsTheLine := by
  unfold Obligations.EveryTickRecordsTheLine
  intro s t hrst h
  obtain ⟨u, -, rfl, -, hnow, henv⟩ := step_next_of_noRst hrst h
  refine ⟨by simp [hnow], ?_, by simp [henv], rfl, rfl, rfl⟩
  show resolve u.drv (controllerDrive u) = _
  rw [controllerDrive_congr henv hnow]
  rfl

/-- Settles O39: a tick of reset keeps the configuration too. -/
theorem configurationIsFixed : Obligations.ConfigurationIsFixed := by
  unfold Obligations.ConfigurationIsFixed
  intro s t h
  rcases step_next h with ⟨-, rfl⟩ | ⟨-, u, hu, rfl⟩
  · rfl
  · simpa using (tickWork_frame hu).1

/-- Settles O38: without a call the work is `begin`, an access of the host's, or nothing. -/
theorem resultIsHeldUntilTheNextCall : Obligations.ResultIsHeldUntilTheNextCall := by
  unfold Obligations.ResultIsHeldUntilTheNextCall
  intro s t hbusy hrst hrun h
  obtain ⟨u, hu, rfl, -, -, -⟩ := step_next_of_noRst hrst h
  have hfree : busy (beginTick s) = false := by simpa using hbusy
  rcases tickWork_next hu with ⟨-, hx⟩ | ⟨hf, -⟩ | ⟨_, _, _, _, -, rfl⟩ | ⟨_, -, hx⟩ | ⟨-, rfl⟩
  · obtain ⟨-, rfl⟩ := execBegin_next hx
    simp [busy]
  · rcases fetch_run hf with ⟨hi, -⟩ | ⟨-, -, hr, -⟩ | ⟨-, -, -, -, hb⟩ | ⟨_, _, _, _, hi, -⟩
    · cases hi
    · rw [hrun] at hr; cases hr
    · rw [hfree] at hb; cases hb
    · cases hi
  · exact ⟨by simp, by simp, hfree, rfl, rfl⟩
  · rcases hostWrite_next hx with ⟨-, rfl⟩ | ⟨_, _, _, -, -, rfl⟩ | ⟨_, _, _, -, -, rfl⟩ <;>
      exact ⟨by simp, by simp, hfree, rfl, rfl⟩
  · exact ⟨by simp, by simp, hfree, rfl, rfl⟩

/-- A step in flight that answers a next state was a tick of the transaction, with nothing on the ports. -/
theorem step_next_of_busy {s t : State} (hrst : rstLevel s = false) (hbusy : busy s = true) (h : step s = .next t) :
    PortsQuiet s ∧ (∃ code, memRead s.mem.cmd 0 = some code ∧ supportedCode code = true)
      ∧ ∃ u, transactionTick (beginTick s) = .next u ∧ t = endTick u := by
  obtain ⟨u, hu, rfl, -, -, -⟩ := step_next_of_noRst hrst h
  have hbusy' : busy (beginTick s) = true := by simpa using hbusy
  have hfree : busy (beginTick s) ≠ false := by simp [hbusy]
  rcases tickWork_next hu with ⟨hf, -⟩ | ⟨hf, hx⟩ | ⟨_, _, _, _, hf, -⟩ | ⟨_, hf, -⟩ | ⟨hf, -⟩
  · rcases fetch_run hf with ⟨-, -, -, -, hb⟩ | ⟨hi, -⟩ | ⟨hi, -⟩ | ⟨_, _, _, _, hi, -⟩
    · exact absurd hb hfree
    · cases hi
    · cases hi
    · cases hi
  · rcases fetch_run hf with ⟨hi, -⟩ | ⟨-, -, -, -, hb⟩ | ⟨-, hb, hr, ha, -⟩ | ⟨_, _, _, _, hi, -⟩
    · cases hi
    · exact absurd hb hfree
    · obtain ⟨code, hcmd, ⟨hcode, ht⟩ | ⟨-, hp, -⟩⟩ := execRunCommand_next hx
      · rw [commandCode, (beginTick_of_busy hbusy).1] at hcmd
        exact ⟨(portsQuiet_beginTick hbusy).1 ⟨hb, hr, ha⟩, ⟨code, hcmd, hcode⟩, u, ht, rfl⟩
      · exact absurd (busy_eq_false_iff.2 (.inr hp)) hfree
    · cases hi
  · rcases fetch_run hf with ⟨hi, -⟩ | ⟨hi, -⟩ | ⟨hi, -⟩ | ⟨_, _, _, _, -, -, -, -, hb, -⟩
    · cases hi
    · cases hi
    · cases hi
    · exact absurd hb hfree
  · obtain ⟨-, -, -, hb⟩ := fetch_write hf
    exact absurd hb hfree
  · obtain ⟨-, -, -, hb⟩ := fetch_quiet hf
    exact absurd hb hfree

/-- A step in flight of a supported code is a tick of the transaction. -/
theorem step_of_transaction {s : State} {code : Byte} (hrst : rstLevel s = false) (hbusy : busy s = true)
    (hports : PortsQuiet s) (hcmd : memRead s.mem.cmd 0 = some code) (hcode : supportedCode code = true) :
    step s = andThen (transactionTick (beginTick s)) fun t => .next (endTick t) := by
  rw [step_of_busy hrst hbusy hports, exec_runCommand_of_supported (code := code) ?_ hcode]
  rwa [(beginTick_of_busy hbusy).1]

/-- Behind a tick of the wait loop the handler is all that can have written the counters and the scratch (R52). -/
theorem waitTick_counters {s t : State} (h : waitTick s = .next t)
    (hdue : ¬ (s.samplePending = true ∧ s.now = s.sampleAt)) :
    t.bitCounter = s.bitCounter ∧ t.byteCounter = s.byteCounter ∧ t.mem.scratch = s.mem.scratch := by
  obtain ⟨u, hu, ht⟩ := waitTick_next h
  have hedge : u.bitCounter = s.bitCounter ∧ u.byteCounter = s.byteCounter ∧ u.mem.scratch = s.mem.scratch := by
    rcases edgeHandler_next hu with ⟨hp, hn, -⟩ | ⟨-, -, -, rfl⟩ | ⟨-, -, rfl⟩
    · exact absurd ⟨hp, hn⟩ hdue
    · exact ⟨rfl, rfl, rfl⟩
    · exact ⟨rfl, rfl, rfl⟩
  rcases waitTests_next ht with ⟨-, hf⟩ | ⟨-, -, rfl⟩
  · obtain ⟨reply, -, rfl⟩ := finishInterrupt_next hf
    simpa using hedge
  · simpa using hedge

/-- Settles O28: the tick of the wait loop, inside the step. -/
theorem waitLoopOnlyReads : Obligations.WaitLoopOnlyReads := by
  unfold Obligations.WaitLoopOnlyReads
  intro s t hphase hrst h hdue
  obtain ⟨-, -, u, hu, rfl⟩ := step_next_of_busy hrst (busy_eq_true_iff.2 (.inr (.inl hphase))) h
  simp only [transactionTick, beginTick_frame, hphase] at hu
  simpa using waitTick_counters hu (by simpa using hdue)

/-! #### A tick of `SEND` (R84, R88) -/

/-- A tick of `SEND` before `t_a`: the next tick of the frame, and the countdown. -/
theorem sendTick_of_frame {s : State} {bytes : List Byte} (hphase : s.phase = .send)
    (hj : s.txTick + 1 < frameTicks s.cfg s.cmdLen) (hbytes : commandBytes s = some bytes) :
    sendTick s = .next (countdownTick (emitSymbol (frameSymbolAt s.cfg bytes (s.txTick + 1)) (s.txTick + 1) s)) := by
  have hlen : bytes.length = s.cmdLen := firstBytes_length hbytes
  simp only [sendTick, hj, if_true, hbytes]
  rw [execSendCommand_of_send hphase (by rwa [hlen]), andThen_next]

/-- The same state before a tick in which the Controller drives `d`. -/
def withDrive (d : Drive) (src : Option (Sources × Sources)) (rest : List EnvTick) (s : State) : State :=
  { s with env := ⟨d, false, src⟩ :: rest }

theorem sampleSources_withDrive (d d' : Drive) (src : Option (Sources × Sources)) (rest : List EnvTick) (s : State) :
    sampleSources (withDrive d' src rest s) = withDrive d' src rest (sampleSources (withDrive d src rest s)) := by
  rcases src with _ | ⟨enable, pending⟩
  · rfl
  · cases h : s.suppress <;> simp [sampleSources, withDrive, h]

theorem countdownTick_withDrive (d : Drive) (src : Option (Sources × Sources)) (rest : List EnvTick) (s : State) :
    countdownTick (withDrive d src rest s) = withDrive d src rest (countdownTick s) := by
  rw [countdownTick, countdownTick, apply_ite (withDrive d src rest)]
  dsimp only
  rw [apply_ite (withDrive d src rest)]
  rfl

/-- The beginning and the work of a tick of `SEND` do not look at the Controller's drive. -/
theorem sendTick_withDrive {s u : State} (d d' : Drive) (src : Option (Sources × Sources)) (rest : List EnvTick)
    (hphase : s.phase = .send) (hj : s.txTick + 1 < frameTicks s.cfg s.cmdLen)
    (h : transactionTick (beginTick (withDrive d src rest s)) = .next u) :
    transactionTick (beginTick (withDrive d' src rest s)) = .next (withDrive d' src rest u) := by
  have hbusy (d : Drive) : busy (withDrive d src rest s) = true := busy_eq_true_iff.2 (.inl hphase)
  have hbegin : beginTick (withDrive d' src rest s) = withDrive d' src rest (beginTick (withDrive d src rest s)) := by
    rw [beginTick_of_blocked (.inl (hbusy d')), beginTick_of_blocked (.inl (hbusy d))]
    exact sampleSources_withDrive d d' src rest { s with done := false }
  have hb : (beginTick (withDrive d src rest s)).phase = .send
      ∧ (beginTick (withDrive d src rest s)).txTick + 1
        < frameTicks (beginTick (withDrive d src rest s)).cfg (beginTick (withDrive d src rest s)).cmdLen := by
    simp only [beginTick_frame]
    exact ⟨hphase, hj⟩
  rw [hbegin]
  generalize beginTick (withDrive d src rest s) = v at h hb
  obtain ⟨hvphase, hvj⟩ := hb
  simp only [transactionTick, hvphase] at h
  have hv' : (withDrive d' src rest v).phase = .send := hvphase
  simp only [transactionTick, hv']
  rcases sendTick_next h with ⟨-, bytes, -, hbytes, -⟩ | ⟨hn, -⟩
  · rw [sendTick_of_frame hvphase hvj hbytes] at h
    cases h
    rw [sendTick_of_frame (s := withDrive d' src rest v) hvphase hvj hbytes, ← countdownTick_withDrive]
    rfl
  · exact absurd hvj hn

/-- Settles O13: only the end of the tick looks at the line. -/
theorem sendTickIgnoresTheLine : Obligations.SendTickIgnoresTheLine := by
  unfold Obligations.SendTickIgnoresTheLine
  intro s d1 d2 src rest t1 hphase hj h
  have hbusy (d : Drive) : busy (withDrive d src rest s) = true := busy_eq_true_iff.2 (.inl hphase)
  obtain ⟨hports, ⟨code, hcmd, hcode⟩, u, hu, rfl⟩ :=
    step_next_of_busy (s := withDrive d1 src rest s) rfl (hbusy d1) h
  have henv : u.env = ⟨d1, false, src⟩ :: rest := by
    simpa [withDrive] using (outside_transactionTick hu).env
  have hstep := step_of_transaction (s := withDrive d2 src rest s) rfl (hbusy d2) hports hcmd hcode
  rw [sendTick_withDrive d1 d2 src rest hphase hj hu, andThen_next] at hstep
  exact ⟨_, hstep, by simp [endTick, withDrive, henv]⟩

end Sys2Proof.Machine

/-! ### The accept tick (R153, R136, R120, R121, R84) -/

namespace Sys2Proof.Machine

/-- What the accept tick leaves, with the zero-filled buffer `reply`. -/
def firstTick (reply : Buffer) (s : State) : State :=
  startFrame (callBytes s) (prepareDecoder (latchOperands { s with mem := { s.mem with reply := reply } }))

theorem callBytes_length (s : State) : (callBytes s).length = s.mem.cmd.size := by simp [callBytes]

theorem prepareDecoder_of_polling {s : State} (h : s.cfg.decoder = .polling) : prepareDecoder s = s := by
  simp only [prepareDecoder, h]

theorem startTimer_of_timestamp {s : State} (h : s.cfg.timeoutStrategy = .timestamp) : startTimer s = s := by
  simp only [startTimer, h]

theorem startTimer_of_countdown {s : State} (h : s.cfg.timeoutStrategy = .countdown) :
    startTimer s = { s with cnt := s.cfg.timeoutTicks, cntRunning := true, timeoutFlag := false } := by
  simp only [startTimer, h]

theorem bitSourceGiven_iff {c : Config} :
    bitSourceGiven c = true ↔ c.decoder = .polling ∨ c.bitSource = .sampledLevel := by
  simp [bitSourceGiven]

theorem operandProblem_eq_none_iff {s : State} : operandProblem s = none ↔
    (1 ≤ s.replySize ∧ s.replySize ≤ 8) ∧ s.replySize ≤ s.mem.reply.size ∧ bitSourceGiven s.cfg = true := by
  rw [← replySizeLegal_iff]
  cases hn : replySizeLegal s.replySize with
  | false => simp [operandProblem, hn]
  | true =>
    by_cases hroom : s.replySize ≤ s.mem.reply.size
    · cases hsource : bitSourceGiven s.cfg <;> simp [operandProblem, hn, hroom, Nat.not_lt.2 hroom, hsource]
    · simp [operandProblem, hn, hroom, Nat.not_le.1 hroom]

/-- A call within the host's duties is accepted. -/
theorem acceptCommand_of_legal {s : State} (hphase : s.phase = .idle) (hwf : s.mem.wf = true) (h : OperandsLegal s) :
    ∃ reply, acceptCommand s = .next (firstTick reply s) ∧ reply.wf = true ∧ reply.size = s.mem.reply.size
      ∧ ∀ i, reply.byteAt i = if i < s.replySize then 0 else s.mem.reply.byteAt i := by
  obtain ⟨hcmd, -, hn1, hn8, hroom, hconfig, hsource⟩ := h
  obtain ⟨-, hreply, -, -⟩ := memory_wf_iff.1 hwf
  obtain ⟨reply, hfill, hwf', hsize, hread⟩ := zeroFill_spec hreply s.replySize hroom
  have hbytes : firstBytes s.mem.cmd s.mem.cmd.size = some (callBytes s) := firstBytes_eq_some (Nat.le_refl _)
  have hne : callBytes s ≠ [] := List.ne_nil_of_length_pos (by rw [callBytes_length]; exact hcmd)
  refine ⟨reply, ?_, hwf', hsize, hread⟩
  simp only [acceptCommand, operandProblem_eq_none_iff.2 ⟨⟨hn1, hn8⟩, hroom, hsource⟩, hfill, hbytes]
  exact execSendCommand_of_idle (by simpa using hphase) hne (by simpa using hconfig)

/-- A call that is accepted was within the host's duties. -/
theorem operandsLegal_of_acceptCommand {s t : State} {code : Byte} (hphase : s.phase = .idle)
    (hcmd : memRead s.mem.cmd 0 = some code) (hcode : supportedCode code = true) (h : acceptCommand s = .next t) :
    OperandsLegal s := by
  obtain ⟨hproblem, reply, bytes, -, -, hsend⟩ := acceptCommand_next h
  obtain ⟨⟨hn1, hn8⟩, hroom, hsource⟩ := operandProblem_eq_none_iff.1 hproblem
  obtain ⟨hsize, rfl⟩ := memRead_some_iff.1 hcmd
  rcases execSendCommand_next hsend with ⟨-, -, hconfig, -⟩ | ⟨hp, -⟩
  · exact ⟨hsize, hcode, hn1, hn8, hroom, by simpa using hconfig, hsource⟩
  · simp [hphase] at hp

/-- A frame begins Low. -/
theorem waveAt_zero {c : Config} {bytes : List Byte} (hS : 1 ≤ c.ticksPerUnit) (hL : 1 ≤ bytes.length) :
    waveAt c bytes 0 = .low := by
  have hpos : 0 < 32 * bytes.length * c.ticksPerUnit := Nat.mul_pos (by omega) hS
  have hlow (sym : Symbol) : 0 < symbolLowTicks c sym := by cases sym <;> simp only [symbolLowTicks] <;> omega
  rw [waveAt, frameOffset, if_pos hpos, Nat.zero_mod, symbolDrive, if_pos (hlow _)]

/-- The buffers behind the accept tick: the scratch is cleared in the Interrupt variant. -/
theorem firstTick_mem (reply : Buffer) (s : State) : (firstTick reply s).mem =
    { cmd := s.mem.cmd, reply := reply
      scratch := if s.cfg.decoder = .interrupt then zeroBuffer scratchCap else s.mem.scratch } := by
  cases h : s.cfg.decoder with
  | polling => simp [firstTick, prepareDecoder_of_polling, h]
  | interrupt => simp [firstTick, prepareDecoder_of_interrupt, h]

/-- The timer behind the accept tick. -/
theorem firstTick_timer (reply : Buffer) (s : State) :
    (s.cfg.decoder = .interrupt → s.cfg.timeoutStrategy = .countdown →
      (firstTick reply s).cnt = s.cfg.timeoutTicks ∧ (firstTick reply s).cntRunning = true
        ∧ (firstTick reply s).timeoutFlag = false)
    ∧ (s.cfg.decoder = .polling ∨ s.cfg.timeoutStrategy = .timestamp →
      (firstTick reply s).cnt = s.cnt ∧ (firstTick reply s).cntRunning = s.cntRunning
        ∧ (firstTick reply s).timeoutFlag = s.timeoutFlag) := by
  cases hd : s.cfg.decoder with
  | polling => simp [firstTick, prepareDecoder_of_polling, hd]
  | interrupt =>
    cases hs : s.cfg.timeoutStrategy with
    | timestamp => simp [firstTick, prepareDecoder_of_interrupt, startTimer_of_timestamp, hd, hs]
    | countdown => simp [firstTick, prepareDecoder_of_interrupt, startTimer_of_countdown, hd, hs]

/-- The receiver behind the accept tick: acquired and reset in the Interrupt variant, left alone in the other. -/
theorem firstTick_receiver (reply : Buffer) (s : State) :
    (s.cfg.decoder = .interrupt →
      (firstTick reply s).savedEnable = s.compEnable ∧ (firstTick reply s).savedPending = s.compPending
        ∧ (firstTick reply s).compEnable = Sources.none ∧ (firstTick reply s).suppress = true
        ∧ (firstTick reply s).bitCounter = 8 ∧ (firstTick reply s).byteCounter = 0
        ∧ (firstTick reply s).samplePending = false)
    ∧ (s.cfg.decoder = .polling →
      (firstTick reply s).savedEnable = s.savedEnable ∧ (firstTick reply s).savedPending = s.savedPending
        ∧ (firstTick reply s).compEnable = s.compEnable ∧ (firstTick reply s).suppress = s.suppress
        ∧ (firstTick reply s).bitCounter = s.bitCounter ∧ (firstTick reply s).byteCounter = s.byteCounter
        ∧ (firstTick reply s).samplePending = s.samplePending) := by
  cases hd : s.cfg.decoder with
  | polling => simp [firstTick, prepareDecoder_of_polling, hd]
  | interrupt => simp [firstTick, prepareDecoder_of_interrupt, hd, bitsPerByte]

/-- The frame behind the accept tick is in its first tick, its operands latched. -/
theorem firstTick_frame (reply : Buffer) (s : State) :
    (firstTick reply s).phase = .send ∧ (firstTick reply s).txTick = 0 ∧ (firstTick reply s).gieInhibit = true
      ∧ (firstTick reply s).drv = waveAt s.cfg (callBytes s) 0
      ∧ (firstTick reply s).cmdLen = s.mem.cmd.size ∧ (firstTick reply s).replyLen = s.replySize
      ∧ (firstTick reply s).t0 = s.now ∧ (firstTick reply s).cfg = s.cfg ∧ (firstTick reply s).now = s.now
      ∧ (firstTick reply s).armed = s.armed ∧ (firstTick reply s).done = s.done
      ∧ (firstTick reply s).compPending = s.compPending := by
  simp [firstTick, callBytes_length, waveAt]

theorem accepted_firstTick {s : State} (h : OperandsLegal s) {reply : Buffer} (hsize : reply.size = s.mem.reply.size)
    (hread : ∀ i, reply.byteAt i = if i < s.replySize then 0 else s.mem.reply.byteAt i) :
    Accepted s (firstTick reply s) := by
  obtain ⟨hcmd, -, -, -, -, hconfig, -⟩ := h
  have hlow : waveAt s.cfg (callBytes s) 0 = .low :=
    waveAt_zero (configSendable_iff.1 hconfig).1 (by rwa [callBytes_length])
  obtain ⟨hcountdown, hnone⟩ := firstTick_timer reply s
  obtain ⟨hinterrupt, hpolling⟩ := firstTick_receiver reply s
  have hmem := firstTick_mem reply s
  constructor
  case sending => simp [firstTick_frame, hlow]
  case latched => simp [firstTick_frame]
  case zeroFilled => simpa [hmem] using hread
  case hostMemory => simp [hmem, hsize]
  case interrupt =>
    intro hd
    obtain ⟨h1, h2, h3, h4, h5, h6, h7⟩ := hinterrupt hd
    exact ⟨h1, h2, h3, h4, h5, h6, h7, by simp [hmem, hd, zeroBuffer, scratchCap],
      by simp [hmem, hd, zeroBuffer_byteAt]⟩
  case countdown => exact hcountdown
  case noCountdown => exact hnone
  case polling =>
    intro hd
    obtain ⟨h1, h2, h3, h4, h5, h6, h7⟩ := hpolling hd
    exact ⟨h1, h2, h3, h4, h5, h6, h7, by simp [hmem, hd]⟩
  case frame => simp [firstTick]

/-- Settles O18: the row's instruction and `runCommand` are the same accept tick, which `firstTick` writes out. -/
theorem acceptTickOfEveryAcceptedCode : Obligations.AcceptTickOfEveryAcceptedCode := by
  unfold Obligations.AcceptTickOfEveryAcceptedCode
  intro s i code hrow hphase hwf hlegal hbyte
  have hcmd : memRead s.mem.cmd 0 = some code := memRead_some_iff.2 ⟨hlegal.1, hbyte⟩
  have hcode : supportedCode code = true := by
    rcases hrow with ⟨-, rfl⟩ | ⟨-, rfl⟩ | ⟨-, rfl⟩ <;> rfl
  have hexec : exec i s = acceptedCode code s := by
    rcases hrow with ⟨rfl, rfl⟩ | ⟨rfl, rfl⟩ | ⟨rfl, rfl⟩ <;> rfl
  obtain ⟨reply, haccept, -, hsize, hread⟩ := acceptCommand_of_legal hphase hwf hlegal
  have hrun : exec .runCommand s = .next (firstTick reply s) := by
    rw [exec_runCommand_of_supported hcmd hcode]
    simpa [transactionTick, hphase] using haccept
  refine ⟨_, ?_, hrun, accepted_firstTick hlegal hsize hread⟩
  rw [hexec, ← exec_runCommand_eq_acceptedCode hcmd hcode, hrun]

end Sys2Proof.Machine

/-! ### The invariant, tick by tick (10_state.md section 9)

One lemma a phase says what its tick answers from a state with the invariant: always a next state, written out. From
these come the invariant itself, the absence of faults, and what a tick in flight leaves alone. -/

namespace Sys2Proof.Machine

/-! #### Taking the invariant apart and putting it together -/

theorem inv_mem {s : State} (hi : Inv s) : s.mem.wf = true := hi.1

theorem inv_passive {s : State} (hi : Inv s) (h : busy s = false) : Passive s := by
  obtain ⟨-, huninit, hidle, -⟩ := hi
  exact (busy_eq_false_iff.1 h).elim huninit hidle

theorem inv_send {s : State} (hi : Inv s) (h : s.phase = .send) : SendInv s := by
  obtain ⟨-, -, -, hsend, -⟩ := hi
  exact hsend h

theorem inv_wait {s : State} (hi : Inv s) (h : s.phase = .wait) : WaitInv s := by
  obtain ⟨-, -, -, -, hwait, -⟩ := hi
  exact hwait h

theorem inv_firstEdge {s : State} (hi : Inv s) (h : s.phase = .firstEdge) : PollingInv s := by
  obtain ⟨-, -, -, -, -, hfirst, -⟩ := hi
  exact hfirst h

theorem inv_pollRx {s : State} (hi : Inv s) (h : s.phase = .pollRx) : PollingInv s ∧ SamplingInv s := by
  obtain ⟨-, -, -, -, -, -, hpoll⟩ := hi
  exact hpoll h

theorem inv_of_send {s : State} (hwf : s.mem.wf = true) (hp : s.phase = .send) (h : SendInv s) : Inv s := by
  simp only [Inv, hp, hwf, true_and, reduceCtorEq, false_implies, and_true, forall_const]
  exact h

theorem inv_of_wait {s : State} (hwf : s.mem.wf = true) (hp : s.phase = .wait) (h : WaitInv s) : Inv s := by
  simp only [Inv, hp, hwf, true_and, reduceCtorEq, false_implies, and_true, forall_const]
  exact h

theorem inv_of_firstEdge {s : State} (hwf : s.mem.wf = true) (hp : s.phase = .firstEdge) (h : PollingInv s) :
    Inv s := by
  simp only [Inv, hp, hwf, true_and, reduceCtorEq, false_implies, and_true, forall_const]
  exact h

theorem inv_of_pollRx {s : State} (hwf : s.mem.wf = true) (hp : s.phase = .pollRx) (h : PollingInv s)
    (h' : SamplingInv s) : Inv s := by
  simp only [Inv, hp, hwf, true_and, reduceCtorEq, false_implies, forall_const]
  exact ⟨h, h'⟩

/-- A transaction in flight holds its operands. -/
theorem inv_operandsHeld {s : State} (hi : Inv s) (h : busy s = true) : OperandsHeld s := by
  rcases busy_eq_true_iff.1 h with hp | hp | hp | hp
  · exact (inv_send hi hp).1
  · exact (inv_wait hi hp).1
  · exact (inv_firstEdge hi hp).1
  · exact (inv_pollRx hi hp).1.1

/-! #### The beginning of a tick -/

theorem sampleSources_of_suppress {s : State} (h : s.suppress = true) : sampleSources s = s := by
  rcases henv : s.env with _ | ⟨⟨d, rst, _ | ⟨enable, pending⟩⟩, rest⟩ <;> simp [sampleSources, henv, h]

theorem memory_wf_presentLine {s : State} (h : s.mem.wf = true) (lines : List HostLine) :
    (presentLine s lines).mem.wf = true := by
  induction lines with
  | nil => exact h
  | cons line rest ih =>
    match line with
    | .idle 0 => exact ih
    | .idle (k + 1) => exact h
    | .begin => exact h
    | .run bytes buffer n =>
      obtain ⟨-, hreply, hscratch, hsize⟩ := memory_wf_iff.1 h
      refine memory_wf_iff.2 ⟨bufferOf_wf bytes, ?_, hscratch, hsize⟩
      cases buffer with
      | none => exact hreply
      | some contents => exact bufferOf_wf contents
    | .access a => exact h

theorem memory_wf_beginTick {s : State} (h : s.mem.wf = true) : (beginTick s).mem.wf = true := by
  have hs : (sampleSources { s with done := false }).mem.wf = true := by simpa using h
  rw [beginTick, presentHost]
  split
  · exact hs
  · exact memory_wf_presentLine hs _

/-- Beside the competing sources' bits, which stay while they are suppressed, a tick in flight begins with `done`
falling and nothing else. -/
theorem beginTick_of_suppress {s : State} (hbusy : busy s = true) (h : s.suppress = true) :
    beginTick s = { s with done := false } := by
  rw [beginTick_of_blocked (.inl hbusy), sampleSources_of_suppress (s := { s with done := false }) h]

theorem inv_beginTick {s : State} (hi : Inv s) : Inv (beginTick s) := by
  have hwf := memory_wf_beginTick (inv_mem hi)
  cases hbusy : busy s with
  | false => exact inv_of_notBusy hwf (by simpa using hbusy) (by simpa [Passive] using inv_passive hi hbusy)
  | true =>
    obtain ⟨hmem, -⟩ := beginTick_of_busy hbusy
    rcases busy_eq_true_iff.1 hbusy with hp | hp | hp | hp
    · have h := inv_send hi hp
      refine inv_of_send hwf (by simpa using hp) ?_
      cases hd : s.cfg.decoder with
      | interrupt =>
        have hsuppress : s.suppress = true := by obtain ⟨-, -, -, -, -, -, -, hint, -⟩ := h; exact (hint hd).2.1
        rw [beginTick_of_suppress hbusy hsuppress]
        exact h
      | polling => simpa [SendInv, OperandsHeld, sentBytes, hmem, hd] using h
    · have h := inv_wait hi hp
      have hsuppress : s.suppress = true := by obtain ⟨-, -, -, -, -, -, hs, -⟩ := h; exact hs
      refine inv_of_wait hwf (by simpa using hp) ?_
      rw [beginTick_of_suppress hbusy hsuppress]
      exact h
    · refine inv_of_firstEdge hwf (by simpa using hp) ?_
      simpa [PollingInv, OperandsHeld, hmem] using inv_firstEdge hi hp
    · obtain ⟨h, h'⟩ := inv_pollRx hi hp
      refine inv_of_pollRx hwf (by simpa using hp) ?_ ?_
      · simpa [PollingInv, OperandsHeld, hmem] using h
      · simpa [SamplingInv] using h'

/-! #### What a tick in flight keeps -/

/-- The bits the competing sources have, or will have back (R136, R137). -/
def heldSources (s : State) : Sources × Sources :=
  if s.suppress then (s.savedEnable, s.savedPending) else (s.compEnable, s.compPending)

/-- What every tick of a transaction in flight keeps: the surroundings, the latched operands, the reply buffer from
`n` on and the competing sources' bits. -/
structure KeepsCall (s t : State) : Prop where
  outside : Outside s t
  cmdLen : t.cmdLen = s.cmdLen
  replyLen : t.replyLen = s.replyLen
  t0 : t.t0 = s.t0
  room : t.mem.reply.size = s.mem.reply.size
  behind : ∀ i, s.replyLen ≤ i → t.mem.reply.byteAt i = s.mem.reply.byteAt i
  sources : heldSources t = heldSources s

theorem KeepsCall.trans {s t u : State} (h : KeepsCall s t) (h' : KeepsCall t u) : KeepsCall s u where
  outside := h.outside.trans h'.outside
  cmdLen := h'.cmdLen.trans h.cmdLen
  replyLen := h'.replyLen.trans h.replyLen
  t0 := h'.t0.trans h.t0
  room := h'.room.trans h.room
  behind i hi := (h'.behind i (h.replyLen ▸ hi)).trans (h.behind i hi)
  sources := h'.sources.trans h.sources

/-- The operands are held into the next tick. -/
theorem operandsHeld_endTick {s t : State} (h : OperandsHeld s) (hk : KeepsCall s t) : OperandsHeld (endTick t) := by
  obtain ⟨h1, h2, h3, h4, h5, h6, h7, h8⟩ := h
  simp only [OperandsHeld, endTick_fields, hk.outside.cfg, hk.outside.now, hk.outside.cmd, hk.cmdLen, hk.replyLen,
    hk.t0, hk.room]
  exact ⟨h1, h2, h3, h4, h5, h6, h7, by omega⟩

/-- What a tick of a transaction in flight does: the call is kept, the invariant holds behind it, and it goes on or
returns; in `WAIT` it goes on only before the deadline. -/
structure TickInFlight (s t : State) : Prop where
  keeps : KeepsCall s t
  inv : Inv (endTick t)
  ends : (t.done = true ∧ t.phase = .idle) ∨ (t.done = s.done ∧ busy t = true)
  deadline : t.phase = .wait → s.now - s.t0 < s.cfg.timeoutTicks

/-! #### `SEND` -/

theorem countdownTick_of_notRunning {s : State} (h : s.cntRunning = false) : countdownTick s = s := by
  simp [countdownTick, h]

/-- A tick before the deadline holds the timer. -/
theorem timerHeld_countdownTick {s : State} (h : TimerHeld s) (ht0 : s.t0 < s.now)
    (hflag : s.cfg.timeoutStrategy = .countdown → (countdownTick s).timeoutFlag = false) :
    TimerHeld (endTick (countdownTick s)) := by
  obtain ⟨hrest, hcount⟩ := h
  obtain ⟨-, hnext⟩ := deadlineHeld_countdownTick ⟨ht0, hcount⟩ hflag
  refine ⟨fun hs => ?_, hnext⟩
  have hstop := hrest (by simpa using hs)
  simp [countdownTick_of_notRunning hstop, hstop]

/-- The next tick of the frame, with its countdown. -/
def frameTick (s : State) : State :=
  countdownTick (emitSymbol (frameSymbolAt s.cfg (sentBytes s) (s.txTick + 1)) (s.txTick + 1) s)

theorem commandBytes_of_held {s : State} (h : OperandsHeld s) : commandBytes s = some (sentBytes s) := by
  obtain ⟨hlen, -⟩ := h
  exact firstBytes_eq_some (Nat.le_of_eq hlen)

theorem sendTick_eq_frameTick {s : State} (h : OperandsHeld s) (hphase : s.phase = .send)
    (hj : s.txTick + 1 < frameTicks s.cfg s.cmdLen) : sendTick s = .next (frameTick s) :=
  sendTick_of_frame hphase hj (commandBytes_of_held h)

theorem keepsCall_frameTick (s : State) : KeepsCall s (frameTick s) := by
  constructor
  case outside => constructor <;> simp [frameTick]
  all_goals simp [frameTick, heldSources]

theorem tickInFlight_frameTick {s : State} (hi : Inv s) (hphase : s.phase = .send)
    (hj : s.txTick + 1 < frameTicks s.cfg s.cmdLen) : TickInFlight s (frameTick s) := by
  have hk := keepsCall_frameTick s
  obtain ⟨hheld, hgie, harmed, hpending, -, hnow, -, hinterrupt, hpolling⟩ := inv_send hi hphase
  have hp : (frameTick s).phase = .send := by simp [frameTick, hphase]
  refine ⟨hk, inv_of_send (by simpa [frameTick] using inv_mem hi) hp ?_, .inr ⟨by simp [frameTick], by simp [busy, hp]⟩,
    by simp [hp]⟩
  refine ⟨operandsHeld_endTick hheld hk, by simp [frameTick, hgie], by simp [frameTick, harmed],
    by simp [frameTick, hpending], by simpa [frameTick] using hj, by simp [frameTick]; omega,
    by simp [frameTick, sentBytes, waveAt], fun hd => ?_, fun hd => ?_⟩
  · obtain ⟨hsource, hsuppress, hnone, hbits, hbytes, htimer⟩ := hinterrupt (by simpa [frameTick] using hd)
    refine ⟨by simp [frameTick, hsource], by simp [frameTick, hsuppress], by simp [frameTick, hnone],
      by simp [frameTick, hbits], by simp [frameTick, hbytes], ?_⟩
    refine timerHeld_countdownTick (by exact htimer) (by simp; omega) fun hs => ?_
    rw [countdownTick_timeoutFlag_of_inhibited (by simpa using hgie)]
    exact (htimer.2 (by simpa using hs)).2.1
  · obtain ⟨hsuppress, hstop⟩ := hpolling (by simpa [frameTick] using hd)
    refine ⟨by simp [frameTick, hsuppress], ?_⟩
    rw [frameTick, countdownTick_of_notRunning (by simpa using hstop)]
    simpa using hstop

/-! #### `WAIT` -/

/-- The state with these registers of the receiver (R17 to R20). -/
def withReceiver (scratch : Buffer) (bits bytes : Nat) (pending : Bool) (due : Nat) (s : State) : State :=
  { s with
    mem := { s.mem with scratch := scratch }
    bitCounter := bits, byteCounter := bytes, samplePending := pending, sampleAt := due }

@[simp] theorem withReceiver_frame (scratch : Buffer) (bits bytes : Nat) (pending : Bool) (due : Nat) (s : State) :
    (withReceiver scratch bits bytes pending due s).cfg = s.cfg
    ∧ (withReceiver scratch bits bytes pending due s).now = s.now
    ∧ (withReceiver scratch bits bytes pending due s).phase = s.phase
    ∧ (withReceiver scratch bits bytes pending due s).cmdLen = s.cmdLen
    ∧ (withReceiver scratch bits bytes pending due s).replyLen = s.replyLen
    ∧ (withReceiver scratch bits bytes pending due s).t0 = s.t0
    ∧ (withReceiver scratch bits bytes pending due s).drv = s.drv
    ∧ (withReceiver scratch bits bytes pending due s).mem = { s.mem with scratch := scratch }
    ∧ (withReceiver scratch bits bytes pending due s).bitCounter = bits
    ∧ (withReceiver scratch bits bytes pending due s).byteCounter = bytes
    ∧ (withReceiver scratch bits bytes pending due s).samplePending = pending
    ∧ (withReceiver scratch bits bytes pending due s).sampleAt = due
    ∧ (withReceiver scratch bits bytes pending due s).success = s.success
    ∧ (withReceiver scratch bits bytes pending due s).done = s.done
    ∧ (withReceiver scratch bits bytes pending due s).cause = s.cause
    ∧ (withReceiver scratch bits bytes pending due s).armed = s.armed
    ∧ (withReceiver scratch bits bytes pending due s).gieInhibit = s.gieInhibit
    ∧ (withReceiver scratch bits bytes pending due s).suppress = s.suppress
    ∧ (withReceiver scratch bits bytes pending due s).savedEnable = s.savedEnable
    ∧ (withReceiver scratch bits bytes pending due s).savedPending = s.savedPending
    ∧ (withReceiver scratch bits bytes pending due s).compEnable = s.compEnable
    ∧ (withReceiver scratch bits bytes pending due s).compPending = s.compPending
    ∧ (withReceiver scratch bits bytes pending due s).replySize = s.replySize
    ∧ (withReceiver scratch bits bytes pending due s).script = s.script
    ∧ (withReceiver scratch bits bytes pending due s).env = s.env
    ∧ (withReceiver scratch bits bytes pending due s).report = s.report := by
  simp [withReceiver]

/-- What line 1 of R138 can have left in `WAIT`: registers of the receiver within their ranges. -/
structure Handled (s u : State) : Prop where
  frame : ∃ scratch bits bytes pending due, u = withReceiver scratch bits bytes pending due s
  mem : u.mem.wf = true
  bits : 1 ≤ u.bitCounter ∧ u.bitCounter ≤ 8
  bytes : u.byteCounter ≤ s.replyLen
  complete : u.byteCounter = s.replyLen ↔ CompletesNow s

theorem edgeHandler_of_wait {s : State} (hwf : s.mem.wf = true) (h : WaitInv s) :
    ∃ u, edgeHandler s = .next u ∧ Handled s u := by
  obtain ⟨⟨-, -, -, -, hn8, -⟩, -, -, -, -, -, -, -, hlow, hhigh, hbytes, -⟩ := h
  obtain ⟨hcmd, hreply, hscratch, hsize⟩ := memory_wf_iff.1 hwf
  by_cases hdue : s.samplePending = true ∧ s.now = s.sampleAt
  · obtain ⟨scratch, hwrite, hbody⟩ := handlerBody_of_inRange (s := s) (by omega)
    refine ⟨_, (edgeHandler_of_due hdue.1 hdue.2).trans hbody, ⟨_, _, _, _, s.sampleAt, rfl⟩, ?_, ?_, ?_, ?_⟩
    · exact memory_wf_iff.2
        ⟨hcmd, hreply, memWrite_wf hscratch hwrite, (memWrite_size hwrite).trans hsize⟩
    · dsimp only [bitsPerByte] at hhigh ⊢; split <;> omega
    · dsimp only; split <;> omega
    · dsimp only [CompletesNow]
      split <;> constructor
      · exact fun hc => ⟨hdue.1, hdue.2, by omega, hc⟩
      · exact fun ⟨_, _, _, hall⟩ => hall
      · exact fun hc => absurd hc (by omega)
      · exact fun hc => absurd hc.2.2.1 (by omega)
  · have hcomplete : s.byteCounter = s.replyLen ↔ CompletesNow s :=
      ⟨fun hc => by omega, fun hc => absurd ⟨hc.1, hc.2.1⟩ hdue⟩
    refine ⟨_, edgeHandler_of_notDue hdue, ?_⟩
    split
    · exact ⟨⟨_, _, _, _, _, rfl⟩, hwf, ⟨hlow, hhigh⟩, hbytes.le, hcomplete⟩
    · exact ⟨⟨_, _, _, _, _, rfl⟩, hwf, ⟨hlow, hhigh⟩, hbytes.le, hcomplete⟩

/-- The state the finish leaves, with the copied buffer `reply` (R133, R137, R134, R135). -/
def finished (reply : Buffer) (s : State) : State :=
  { s with
    armed := false, samplePending := false, cntRunning := false
    compEnable := s.savedEnable, compPending := s.savedPending, suppress := false
    mem := { s.mem with reply := reply }
    success := replyComplete s, done := true
    cause := if replyComplete s then none else some .timeout
    phase := .idle }

/-- A finish with at most `n` bytes received is inside its buffers. -/
theorem finishInterrupt_eq_finished {s : State} (hwf : s.mem.wf = true) (h : OperandsHeld s)
    (hbytes : s.byteCounter ≤ s.replyLen) :
    ∃ reply, finishInterrupt s = .next (finished reply s) ∧ reply.wf = true ∧ reply.size = s.mem.reply.size
      ∧ ∀ i, reply.byteAt i = if i < s.byteCounter then s.mem.scratch.byteAt i else s.mem.reply.byteAt i := by
  obtain ⟨-, -, -, -, hn8, hroom, -, -⟩ := h
  obtain ⟨-, hreply, -, hsize⟩ := memory_wf_iff.1 hwf
  obtain ⟨reply, hcopy, hw, hsz, hread⟩ :=
    copyBytes_spec (src := s.mem.scratch) hreply s.byteCounter (by omega) (by omega)
  exact ⟨reply, finishInterrupt_of_copy hcopy, hw, hsz, hread⟩

theorem deadlineHeld_of_held {s : State} (h : OperandsHeld s) (ht : TimerHeld s) : DeadlineHeld s := by
  obtain ⟨-, -, -, -, -, -, -, ht0⟩ := h
  exact ⟨ht0, ht.2⟩

/-- Behind line 1 of R138 a tick of `WAIT` finishes when the reply is complete or the deadline reached. -/
theorem waitTick_of_edgeHandler {s u : State} (hgie : s.gieInhibit = false) (hd : DeadlineHeld s)
    (he : edgeHandler s = .next u) (hu : Handled s u) :
    waitTick s = if u.byteCounter = s.replyLen ∨ s.cfg.timeoutTicks ≤ s.now - s.t0
      then finishInterrupt (countdownTick u) else .next (countdownTick u) := by
  obtain ⟨-, hgie', hd'⟩ := edgeHandler_deadline he
  obtain ⟨ht0, hcount⟩ := hd' hd
  have htimed := timedOut_countdownTick hcount ht0 (hgie'.trans hgie)
  obtain ⟨scratch, bits, bytes, pending, due, rfl⟩ := hu.frame
  have hcomplete : replyComplete (countdownTick (withReceiver scratch bits bytes pending due s))
      = decide (bytes = s.replyLen) := by simp [replyComplete]
  rw [waitTick, he, andThen_next, waitTests, hcomplete, htimed]
  by_cases h1 : bytes = s.replyLen <;> by_cases h2 : s.cfg.timeoutTicks ≤ s.now - s.t0 <;>
    simp [h1, h2]

theorem timeoutFlag_of_not_timedOut {s : State} (hs : s.cfg.timeoutStrategy = .countdown)
    (h : timedOut s = false) : s.timeoutFlag = false := by
  simpa [timedOut, hs] using h

theorem keepsCall_countdownTick_withReceiver (s : State) (scratch : Buffer) (bits bytes : Nat) (pending : Bool)
    (due : Nat) : KeepsCall s (countdownTick (withReceiver scratch bits bytes pending due s)) := by
  constructor
  case outside => constructor <;> simp
  all_goals simp [heldSources]

/-- A tick of `WAIT` that goes on (R131, R132). -/
theorem tickInFlight_countdownTick {s u : State} (hphase : s.phase = .wait) (hi : WaitInv s) (hu : Handled s u)
    (he : edgeHandler s = .next u) (hnc : ¬ CompletesNow s) (hnd : ¬ s.cfg.timeoutTicks ≤ s.now - s.t0) :
    TickInFlight s (countdownTick u) := by
  obtain ⟨hheld, hdecoder, hsource, hdrv, hgie, harmed, hsuppress, hnone, -, -, -, htimer⟩ := hi
  have hmem := hu.mem
  have hbits := hu.bits
  have hbytes : u.byteCounter < s.replyLen := by
    have := hu.bytes
    have := hu.complete.not.2 hnc
    omega
  obtain ⟨ht0, hcount⟩ := (edgeHandler_deadline he).2.2 (deadlineHeld_of_held hheld htimer)
  have hopen := timedOut_countdownTick hcount ht0 ((edgeHandler_deadline he).2.1.trans hgie)
  obtain ⟨scratch, bits, bytes, pending, due, rfl⟩ := hu.frame
  have hk := keepsCall_countdownTick_withReceiver s scratch bits bytes pending due
  refine ⟨hk, inv_of_wait (by simpa using hmem) (by simpa using hphase) ?_,
    .inr ⟨by simp, ?_⟩, fun _ => by omega⟩
  · refine ⟨operandsHeld_endTick hheld hk, by simpa using hdecoder, by simpa using hsource, by simpa using hdrv,
      by simpa using hgie, by simpa using harmed, by simpa using hsuppress, by simpa using hnone,
      by simpa using hbits.1, by simpa [bitsPerByte] using hbits.2, by simpa using hbytes, ?_⟩
    refine timerHeld_countdownTick htimer ht0 fun hs => timeoutFlag_of_not_timedOut (by simpa using hs) ?_
    rw [hopen]
    exact decide_eq_false hnd
  · exact busy_eq_true_iff.2 (.inr (.inl (by simpa using hphase)))

/-- A tick of `WAIT` that finishes. -/
theorem tickInFlight_finished {s u : State} (hi : WaitInv s) (hu : Handled s u) {reply : Buffer} (hwf : reply.wf = true)
    (hsize : reply.size = s.mem.reply.size)
    (hread : ∀ i, reply.byteAt i = if i < u.byteCounter then u.mem.scratch.byteAt i else s.mem.reply.byteAt i) :
    TickInFlight s (finished reply (countdownTick u)) := by
  obtain ⟨-, -, -, hdrv, hgie, -, hsuppress, -⟩ := hi
  have hmem := memory_wf_iff.1 hu.mem
  have hbytes := hu.bytes
  obtain ⟨scratch, bits, bytes, pending, due, rfl⟩ := hu.frame
  obtain ⟨hcmd, -, hscratch, hscratchSize⟩ := hmem
  refine ⟨?_, inv_of_notBusy ?_ rfl ?_, .inl ⟨rfl, rfl⟩, by simp [finished]⟩
  · constructor
    case outside => constructor <;> simp [finished]
    case behind =>
      intro i hn
      simp only [finished]
      rw [hread i, if_neg]
      simp only [withReceiver_frame] at hbytes ⊢
      omega
    all_goals simp [finished, withReceiver, heldSources, hsuppress, hsize]
  · exact memory_wf_iff.2 (by simpa [finished] using ⟨hcmd, hwf, hscratch, hscratchSize⟩)
  · simp [Passive, finished, withReceiver, hdrv, hgie]

/-- The tick of `WAIT` from a state with the invariant: it goes on or finishes, by R131 and R132. -/
theorem waitTick_of_inv {s : State} (hi : Inv s) (hphase : s.phase = .wait) :
    ∃ u t, edgeHandler s = .next u ∧ Handled s u ∧ waitTick s = .next t ∧ TickInFlight s t
      ∧ ((¬ CompletesNow s ∧ ¬ s.cfg.timeoutTicks ≤ s.now - s.t0 ∧ t = countdownTick u)
        ∨ ((CompletesNow s ∨ s.cfg.timeoutTicks ≤ s.now - s.t0)
          ∧ ∃ reply, t = finished reply (countdownTick u)
            ∧ ∀ i, reply.byteAt i
                = if i < u.byteCounter then u.mem.scratch.byteAt i else s.mem.reply.byteAt i)) := by
  have hw := inv_wait hi hphase
  obtain ⟨u, he, hu⟩ := edgeHandler_of_wait (inv_mem hi) hw
  have ⟨hheld, _, _, _, hgie, _, _, _, _, _, _, htimer⟩ := hw
  have htick := waitTick_of_edgeHandler hgie (deadlineHeld_of_held hheld htimer) he hu
  simp only [hu.complete] at htick
  by_cases hend : CompletesNow s ∨ s.cfg.timeoutTicks ≤ s.now - s.t0
  · rw [if_pos hend] at htick
    obtain ⟨reply, hfinish, hwf, hsize, hread⟩ : ∃ reply, finishInterrupt (countdownTick u)
        = .next (finished reply (countdownTick u)) ∧ reply.wf = true ∧ reply.size = s.mem.reply.size
        ∧ ∀ i, reply.byteAt i = if i < u.byteCounter then u.mem.scratch.byteAt i else s.mem.reply.byteAt i := by
      obtain ⟨scratch, bits, bytes, pending, due, hframe⟩ := hu.frame
      have hroom : OperandsHeld (countdownTick u) := by
        subst hframe
        simpa [OperandsHeld] using hheld
      have h := finishInterrupt_eq_finished (s := countdownTick u) (by simpa using hu.mem) hroom
        (by simpa [hframe] using hu.bytes)
      simpa [hframe] using h
    exact ⟨u, _, he, hu, htick.trans hfinish, tickInFlight_finished hw hu hwf hsize hread,
      .inr ⟨hend, reply, rfl, hread⟩⟩
  · rw [if_neg hend] at htick
    obtain ⟨hnc, hnd⟩ := not_or.1 hend
    exact ⟨u, _, he, hu, htick, tickInFlight_countdownTick hphase hw hu he hnc hnd, .inl ⟨hnc, hnd, rfl⟩⟩

/-! #### `FIRSTEDGE` and `POLLRX` -/

/-- The tick of `FIRSTEDGE`. -/
theorem firstEdgeTick_of_inv {s : State} (hi : Inv s) (hphase : s.phase = .firstEdge) :
    ∃ t, firstEdgeTick s = .next t ∧ TickInFlight s t := by
  have h := inv_firstEdge hi hphase
  have hheld := h.1
  have ⟨_, _, _, hn, _⟩ := hheld
  cases hline : lineLevel s with
  | low =>
    refine ⟨_, firstEdgeTick_of_low hline, ?_⟩
    have hk : KeepsCall s { s with phase := .pollRx, cur := 0, nbits := 0, highCount := 0, pollPrev := .low } :=
      ⟨⟨rfl, rfl, rfl, rfl, rfl, rfl, rfl⟩, rfl, rfl, rfl, rfl, fun _ _ => rfl, rfl⟩
    refine ⟨hk, inv_of_pollRx (inv_mem hi :) rfl ⟨operandsHeld_endTick hheld hk, h.2⟩ ⟨?_, nofun⟩,
      .inr ⟨rfl, rfl⟩, nofun⟩
    exact Nat.mul_pos (by decide) hn
  | high =>
    refine ⟨_, firstEdgeTick_of_high hline, ?_⟩
    have hk : KeepsCall s s := ⟨.refl s, rfl, rfl, rfl, rfl, fun _ _ => rfl, rfl⟩
    exact ⟨hk, inv_of_firstEdge (inv_mem hi :) hphase ⟨operandsHeld_endTick hheld hk, h.2⟩,
      .inr ⟨rfl, by simp [busy, hphase]⟩, by simp [hphase]⟩

/-- The buffers behind a store into the reply. -/
theorem memory_wf_withReply {m : Memory} (h : m.wf = true) {reply : Buffer} (hw : reply.wf = true) :
    ({ m with reply := reply } : Memory).wf = true := by
  obtain ⟨hcmd, -, hscratch, hsize⟩ := memory_wf_iff.1 h
  exact memory_wf_iff.2 ⟨hcmd, hw, hscratch, hsize⟩

theorem memory_wf_storeFinishedByte {s t : State} (hwf : s.mem.wf = true) (h : storeFinishedByte s = .next t) :
    t.mem.wf = true ∧ t.mem.reply.size = s.mem.reply.size := by
  obtain ⟨-, hreply, -, -⟩ := memory_wf_iff.1 hwf
  rcases storeFinishedByte_next h with ⟨-, reply, hw, rfl⟩ | ⟨-, rfl⟩
  · exact ⟨memory_wf_withReply hwf (memWrite_wf hreply hw), memWrite_size hw⟩
  · exact ⟨hwf, rfl⟩

theorem memory_wf_bitBoundary {s t : State} (hwf : s.mem.wf = true) (h : bitBoundary s = .next t) :
    t.mem.wf = true ∧ t.mem.reply.size = s.mem.reply.size := by
  rw [bitBoundary_eq] at h
  obtain ⟨u, hu, ht⟩ := andThen_next_iff.1 h
  have hmem := memory_wf_storeFinishedByte (s := closeCell s) hwf hu
  split at ht <;> cases ht <;> exact hmem

/-- The state behind a bit boundary in which `reply` is what the buffer holds (R103, R108). -/
def boundary (reply : Buffer) (s : State) : State :=
  if s.nbits + 1 = 8 * s.replyLen
    then finishPolling { closeCell s with mem := { s.mem with reply := reply } }
    else { closeCell s with mem := { s.mem with reply := reply } }

@[simp] theorem boundary_frame (reply : Buffer) (s : State) :
    (boundary reply s).cfg = s.cfg ∧ (boundary reply s).now = s.now ∧ (boundary reply s).cmdLen = s.cmdLen
    ∧ (boundary reply s).replyLen = s.replyLen ∧ (boundary reply s).t0 = s.t0 ∧ (boundary reply s).drv = s.drv
    ∧ (boundary reply s).mem = { s.mem with reply := reply } ∧ (boundary reply s).nbits = s.nbits + 1
    ∧ (boundary reply s).cur = (closeCell s).cur ∧ (boundary reply s).highCount = 0
    ∧ (boundary reply s).pollPrev = .low ∧ (boundary reply s).bitCounter = s.bitCounter
    ∧ (boundary reply s).byteCounter = s.byteCounter ∧ (boundary reply s).timeoutFlag = s.timeoutFlag
    ∧ (boundary reply s).armed = s.armed ∧ (boundary reply s).samplePending = s.samplePending
    ∧ (boundary reply s).suppress = s.suppress ∧ (boundary reply s).cntRunning = s.cntRunning
    ∧ (boundary reply s).savedEnable = s.savedEnable ∧ (boundary reply s).savedPending = s.savedPending
    ∧ (boundary reply s).compEnable = s.compEnable ∧ (boundary reply s).compPending = s.compPending
    ∧ (boundary reply s).replySize = s.replySize ∧ (boundary reply s).script = s.script
    ∧ (boundary reply s).env = s.env ∧ (boundary reply s).report = s.report := by
  rw [boundary]
  split <;> simp [closeCell]

theorem boundary_of_last {s : State} (h : s.nbits + 1 = 8 * s.replyLen) (reply : Buffer) :
    (boundary reply s).phase = .idle ∧ (boundary reply s).gieInhibit = false ∧ (boundary reply s).done = true
      ∧ (boundary reply s).success = true := by
  simp [boundary, h]

theorem boundary_of_inner {s : State} (h : s.nbits + 1 ≠ 8 * s.replyLen) (reply : Buffer) :
    (boundary reply s).phase = s.phase ∧ (boundary reply s).gieInhibit = s.gieInhibit
      ∧ (boundary reply s).done = s.done ∧ (boundary reply s).success = s.success := by
  simp [boundary, h, closeCell]

/-- A bit boundary with room for the byte it may finish. -/
theorem bitBoundary_eq_boundary {s : State} (hwf : s.mem.wf = true) (hn : s.nbits < 8 * s.replyLen)
    (hr : s.replyLen ≤ s.mem.reply.size) :
    ∃ reply, bitBoundary s = .next (boundary reply s) ∧ reply.wf = true ∧ reply.size = s.mem.reply.size
      ∧ ∀ i, reply.byteAt i = if (s.nbits + 1) % 8 = 0 ∧ i = (s.nbits + 1) / 8 - 1
          then (closeCell s).cur else s.mem.reply.byteAt i := by
  obtain ⟨-, hreply, -, -⟩ := memory_wf_iff.1 hwf
  obtain ⟨reply, hb, hread⟩ := bitBoundary_of_inRange hreply hn hr
  have hb' : bitBoundary s = .next (boundary reply s) := hb
  obtain ⟨hmem, hsize⟩ := memory_wf_bitBoundary hwf hb'
  simp only [boundary_frame] at hmem hsize
  exact ⟨reply, hb', (memory_wf_iff.1 hmem).2.1, hsize, hread⟩

theorem tickInFlight_boundary {s : State} (hi : Inv s) (hphase : s.phase = .pollRx) {reply : Buffer}
    (hwf : reply.wf = true) (hsize : reply.size = s.mem.reply.size)
    (hread : ∀ i, reply.byteAt i = if (s.nbits + 1) % 8 = 0 ∧ i = (s.nbits + 1) / 8 - 1
      then (closeCell s).cur else s.mem.reply.byteAt i) : TickInFlight s (boundary reply s) := by
  obtain ⟨⟨hheld, hdecoder, hdrv, hgie, harmed, hpending, hsuppress, hstop⟩, hn, -⟩ := inv_pollRx hi hphase
  have hk : KeepsCall s (boundary reply s) := by
    constructor
    case outside => constructor <;> simp
    case behind =>
      intro i hle
      simp only [boundary_frame, bitsPerByte] at hn ⊢
      rw [hread i, if_neg]
      omega
    all_goals simp [heldSources, hsize]
  have hmem : (boundary reply s).mem.wf = true := by simpa using memory_wf_withReply (inv_mem hi) hwf
  by_cases hlast : s.nbits + 1 = 8 * s.replyLen
  · obtain ⟨hp, hopen, hdone, -⟩ := boundary_of_last hlast reply
    refine ⟨hk, inv_of_notBusy hmem (busy_eq_false_iff.2 (.inr hp)) ?_, .inl ⟨hdone, hp⟩, by simp [hp]⟩
    simp [Passive, hdrv, harmed, hpending, hopen, hsuppress, hstop]
  · obtain ⟨hp, hgie', hdone, -⟩ := boundary_of_inner hlast reply
    have hbusy : busy (boundary reply s) = true := by rw [busy_congr hp]; simp [busy, hphase]
    refine ⟨hk, inv_of_pollRx hmem (hp.trans hphase) ⟨operandsHeld_endTick hheld hk, ?_⟩ ⟨?_, by simp⟩,
      .inr ⟨hdone, hbusy⟩, by simp [hp, hphase]⟩
    · simp [hdecoder, hdrv, hgie, hgie', harmed, hpending, hsuppress, hstop]
    · simp only [endTick_fields, boundary_frame, bitsPerByte] at hn ⊢
      omega

/-- The tick of `POLLRX`. -/
theorem pollTick_of_inv {s : State} (hi : Inv s) (hphase : s.phase = .pollRx) :
    ∃ t, pollTick s = .next t ∧ TickInFlight s t := by
  obtain ⟨hpoll, hn, hcount⟩ := inv_pollRx hi hphase
  have hheld := hpoll.1
  have hbusy : busy s = true := busy_eq_true_iff.2 (.inr (.inr (.inr hphase)))
  cases hline : lineLevel s with
  | high =>
    have hk : KeepsCall s { s with highCount := s.highCount + 1, pollPrev := .high } :=
      ⟨⟨rfl, rfl, rfl, rfl, rfl, rfl, rfl⟩, rfl, rfl, rfl, rfl, fun _ _ => rfl, rfl⟩
    refine ⟨_, pollTick_of_high hline, hk, inv_of_pollRx (inv_mem hi :) hphase
      ⟨operandsHeld_endTick hheld hk, hpoll.2⟩ ⟨hn, fun _ => ?_⟩, .inr ⟨rfl, hbusy⟩, by simp [hphase]⟩
    exact Nat.le_add_left 1 s.highCount
  | low =>
    cases hprev : s.pollPrev with
    | low =>
      have hk : KeepsCall s s := ⟨.refl s, rfl, rfl, rfl, rfl, fun _ _ => rfl, rfl⟩
      exact ⟨_, pollTick_of_low_low hline hprev, hk, inv_of_pollRx (inv_mem hi :) hphase
        ⟨operandsHeld_endTick hheld hk, hpoll.2⟩ ⟨hn, hcount⟩, .inr ⟨rfl, hbusy⟩, by simp [hphase]⟩
    | high =>
      obtain ⟨reply, hb, hw, hsize, hread⟩ :=
        bitBoundary_eq_boundary (inv_mem hi) hn (by obtain ⟨-, -, -, -, -, hr, -⟩ := hheld; exact hr)
      exact ⟨_, (pollTick_of_low_high hline hprev).trans hb, tickInFlight_boundary hi hphase hw hsize hread⟩

/-! #### `t_a`, and any tick in flight -/

/-- At `t_a` the Interrupt variant arms with the invariant of `WAIT`. -/
theorem inv_enterWait {s : State} (hi : Inv s) (hphase : s.phase = .send) (hd : s.cfg.decoder = .interrupt) :
    Inv (enterWait s) := by
  obtain ⟨hheld, -, -, -, -, -, -, hinterrupt, -⟩ := inv_send hi hphase
  obtain ⟨hsource, hsuppress, hnone, hbits, hbytes, htimer⟩ := hinterrupt hd
  have hn : 0 < s.replyLen := by obtain ⟨-, -, -, hn, -⟩ := hheld; exact hn
  exact inv_of_wait (inv_mem hi :) rfl ⟨hheld, hd, hsource, rfl, rfl, rfl, hsuppress, hnone,
    by simp [hbits, bitsPerByte], by simp [hbits], by simpa [hbytes] using hn, htimer⟩

/-- At `t_a` the Polling variant listens with the invariant of `FIRSTEDGE`. -/
theorem inv_enterFirstEdge {s : State} (hi : Inv s) (hphase : s.phase = .send) (hd : s.cfg.decoder = .polling) :
    Inv (enterFirstEdge s) := by
  obtain ⟨hheld, hgie, harmed, hpending, -, -, -, -, hpolling⟩ := inv_send hi hphase
  obtain ⟨hsuppress, hstop⟩ := hpolling hd
  exact inv_of_firstEdge (inv_mem hi :) rfl ⟨hheld, hd, rfl, hgie, harmed, hpending, hsuppress, hstop⟩

theorem receiveEntry_of_interrupt {s : State} (hd : s.cfg.decoder = .interrupt) :
    receiveEntry s = waitTick (enterWait s) := by
  simp only [receiveEntry, hd]

theorem receiveEntry_of_polling {s : State} (hd : s.cfg.decoder = .polling) :
    receiveEntry s = firstEdgeTick (enterFirstEdge s) := by
  simp only [receiveEntry, hd]

/-- What the move into the receive phase leaves of the call, at the head of its tick. -/
theorem tickInFlight_of_entry {s s' t : State} (hk : KeepsCall s s') (hdone : s'.done = s.done)
    (h : TickInFlight s' t) : TickInFlight s t where
  keeps := hk.trans h.keeps
  inv := h.inv
  ends := hdone ▸ h.ends
  deadline := by
    have hd := h.deadline
    rwa [hk.outside.now, hk.t0, hk.outside.cfg] at hd

theorem sendTick_of_entry {s : State} (hj : ¬ s.txTick + 1 < frameTicks s.cfg s.cmdLen) :
    sendTick s = receiveEntry s := by
  simp only [sendTick, hj, if_false]

theorem receiveEntry_of_inv {s : State} (hi : Inv s) (hphase : s.phase = .send) :
    ∃ t, receiveEntry s = .next t ∧ TickInFlight s t := by
  cases hd : s.cfg.decoder with
  | interrupt =>
    obtain ⟨-, t, -, -, ht, hf, -⟩ := waitTick_of_inv (inv_enterWait hi hphase hd) rfl
    refine ⟨t, (receiveEntry_of_interrupt hd).trans ht, tickInFlight_of_entry (s' := enterWait s) ?_ rfl hf⟩
    exact ⟨⟨rfl, rfl, rfl, rfl, rfl, rfl, rfl⟩, rfl, rfl, rfl, rfl, fun _ _ => rfl, rfl⟩
  | polling =>
    obtain ⟨t, ht, hf⟩ := firstEdgeTick_of_inv (inv_enterFirstEdge hi hphase hd) rfl
    refine ⟨t, (receiveEntry_of_polling hd).trans ht, tickInFlight_of_entry (s' := enterFirstEdge s) ?_ rfl hf⟩
    exact ⟨⟨rfl, rfl, rfl, rfl, rfl, rfl, rfl⟩, rfl, rfl, rfl, rfl, fun _ _ => rfl, rfl⟩

/-- Every tick in flight has a next state. -/
theorem transactionTick_of_inv {s : State} (hi : Inv s) (hbusy : busy s = true) :
    ∃ t, transactionTick s = .next t ∧ TickInFlight s t := by
  rcases busy_eq_true_iff.1 hbusy with hp | hp | hp | hp <;> simp only [transactionTick, hp]
  · by_cases hj : s.txTick + 1 < frameTicks s.cfg s.cmdLen
    · exact ⟨_, sendTick_eq_frameTick (inv_operandsHeld hi hbusy) hp hj, tickInFlight_frameTick hi hp hj⟩
    · rw [sendTick_of_entry hj]
      exact receiveEntry_of_inv hi hp
  · obtain ⟨-, t, -, -, ht, hf, -⟩ := waitTick_of_inv hi hp
    exact ⟨t, ht, hf⟩
  · exact firstEdgeTick_of_inv hi hp
  · exact pollTick_of_inv hi hp

/-! #### Any tick -/

/-- The accept tick starts the frame with the invariant of `SEND`. -/
theorem inv_firstTick {s : State} (hwf : s.mem.wf = true) (hpassive : Passive s) (h : OperandsLegal s)
    {reply : Buffer} (hw : reply.wf = true) (hsize : reply.size = s.mem.reply.size) :
    Inv (endTick (firstTick reply s)) := by
  obtain ⟨-, harmed, hpending, -, hsuppress, hstop⟩ := hpassive
  obtain ⟨hcmd, hcode, hn1, hn8, hroom, hconfig, hsource⟩ := h
  have hmem := firstTick_mem reply s
  obtain ⟨hcountdown, hnone⟩ := firstTick_timer reply s
  obtain ⟨hinterrupt, hpolling⟩ := firstTick_receiver reply s
  obtain ⟨hp, htx, hgie, hdrv, hlen, hn, ht0, hcfg, hnow, harmed', -, -⟩ := firstTick_frame reply s
  have hpos : 0 < frameTicks s.cfg s.mem.cmd.size := by
    obtain ⟨-, hstop, -⟩ := configSendable_iff.1 hconfig
    exact Nat.lt_of_lt_of_le hstop (Nat.le_add_left _ _)
  have hwf' : (firstTick reply s).mem.wf = true := by
    obtain ⟨hc, -, hs, hsz⟩ := memory_wf_iff.1 hwf
    rw [hmem]
    refine memory_wf_iff.2 ⟨hc, hw, ?_, ?_⟩ <;> dsimp only <;> split
    · rfl
    · exact hs
    · rfl
    · exact hsz
  refine inv_of_send hwf' hp ?_
  have hsent : sentBytes (endTick (firstTick reply s)) = callBytes s := by simp [sentBytes, callBytes, hlen, hmem]
  simp only [SendInv, OperandsHeld, TimerHeld, hsent, endTick_fields, htx, hgie, hdrv, hlen, hn, ht0, hcfg, hnow,
    harmed', hmem]
  refine ⟨⟨trivial, hcmd, hcode, hn1, hn8, hsize ▸ hroom, hconfig, Nat.lt_succ_self _⟩, trivial, harmed, ?_, hpos,
    trivial, trivial, fun hd => ?_, fun hd => ?_⟩
  · cases hd : s.cfg.decoder with
    | interrupt =>
      obtain ⟨-, -, -, -, -, -, hclear⟩ := hinterrupt hd
      exact hclear
    | polling =>
      obtain ⟨-, -, -, -, -, -, hsame⟩ := hpolling hd
      exact hsame.trans hpending
  · obtain ⟨-, -, hclear, hsup, hbits, hbytes, -⟩ := hinterrupt hd
    refine ⟨(bitSourceGiven_iff.1 hsource).resolve_left (by simp [hd]), hsup, hclear, hbits, hbytes,
      fun hs => (hnone (.inr hs)).2.1.trans hstop, fun hs => ?_⟩
    obtain ⟨hcnt, hrun, hflag⟩ := hcountdown hd hs
    exact ⟨hrun, hflag, by simp [hcnt]⟩
  · obtain ⟨-, -, -, hsame, -⟩ := hpolling hd
    obtain ⟨-, hrun, -⟩ := hnone (.inl hd)
    exact ⟨hsame.trans hsuppress, hrun.trans hstop⟩

theorem inv_endTick_of_notBusy {s : State} (hi : Inv s) (hbusy : busy s = false) : Inv (endTick s) :=
  inv_of_notBusy (inv_mem hi :) hbusy (inv_passive hi hbusy :)

/-- `runCommand` on a free engine: the accept tick, or the rejection. -/
theorem execRunCommand_of_notBusy {s t : State} (hi : Inv s) (hbusy : busy s = false)
    (h : execRunCommand s = .next t) :
    (∃ reply, OperandsLegal s ∧ t = firstTick reply s ∧ reply.wf = true ∧ reply.size = s.mem.reply.size)
    ∨ (s.phase = .idle ∧ t = raiseError .unsupportedCommand s) := by
  obtain ⟨code, hcmd, ⟨hcode, ht⟩ | ⟨-, hp, rfl⟩⟩ := execRunCommand_next h
  · rcases busy_eq_false_iff.1 hbusy with hp | hp <;> simp only [transactionTick, hp] at ht
    · cases ht
    · have hlegal := operandsLegal_of_acceptCommand hp hcmd hcode ht
      obtain ⟨reply, haccept, hw, hsize, -⟩ := acceptCommand_of_legal hp (inv_mem hi) hlegal
      cases haccept.symm.trans ht
      exact .inl ⟨reply, hlegal, rfl, hw, hsize⟩
  · exact .inr ⟨hp, rfl⟩

/-- An access of the host's is in its own memory. -/
theorem hostWrite_frame {a : HostAccess} {s t : State} (h : hostWrite a s = .next t) : t = { s with mem := t.mem } := by
  rcases hostWrite_next h with ⟨-, rfl⟩ | ⟨i, v, b, -, -, rfl⟩ | ⟨i, v, b, -, -, rfl⟩ <;> rfl

theorem memory_wf_hostWrite {a : HostAccess} {s t : State} (hwf : s.mem.wf = true) (h : hostWrite a s = .next t) :
    t.mem.wf = true := by
  obtain ⟨hcmd, hreply, hscratch, hsize⟩ := memory_wf_iff.1 hwf
  rcases hostWrite_next h with ⟨-, rfl⟩ | ⟨i, v, b, -, hw, rfl⟩ | ⟨i, v, b, -, hw, rfl⟩
  · exact hwf
  · exact memory_wf_iff.2 ⟨hcmd, memWrite_wf hreply hw, hscratch, hsize⟩
  · exact memory_wf_iff.2 ⟨memWrite_wf hcmd hw, hreply, hscratch, hsize⟩

/-- The work of a tick on a free engine: a host operation, an access of the host's, or nothing. -/
theorem tickWork_of_notBusy {s t : State} (hbusy : busy s = false) (h : tickWork s = .next t) :
    t = initialise s ∨ execRunCommand s = .next t ∨ (∃ report, t = { s with report := report })
      ∨ (∃ a, hostWrite a s = .next t) ∨ t = s := by
  rcases tickWork_next h with ⟨-, hx⟩ | ⟨-, hx⟩ | ⟨_, _, _, _, -, rfl⟩ | ⟨a, -, hx⟩ | ⟨-, rfl⟩
  · exact .inl (execBegin_next hx).2
  · exact .inr (.inl hx)
  · exact .inr (.inr (.inl ⟨_, rfl⟩))
  · exact .inr (.inr (.inr (.inl ⟨a, hx⟩)))
  · exact .inr (.inr (.inr (.inr rfl)))

theorem inv_tickWork_of_notBusy {s t : State} (hi : Inv s) (hbusy : busy s = false) (h : tickWork s = .next t) :
    Inv (endTick t) := by
  have hpassive := inv_passive hi hbusy
  rcases tickWork_of_notBusy hbusy h with rfl | hx | ⟨report, rfl⟩ | ⟨a, hx⟩ | rfl
  · exact inv_of_notBusy (inv_mem hi :) rfl ⟨rfl, rfl, rfl, rfl, rfl, rfl⟩
  · rcases execRunCommand_of_notBusy hi hbusy hx with ⟨reply, hlegal, rfl, hw, hsize⟩ | ⟨hp, rfl⟩
    · exact inv_firstTick (inv_mem hi) hpassive hlegal hw hsize
    · exact inv_of_notBusy (inv_mem hi :) (hbusy :) hpassive
  · exact inv_of_notBusy (inv_mem hi :) hbusy hpassive
  · refine inv_of_notBusy (memory_wf_hostWrite (inv_mem hi) hx :) ?_ ?_ <;> rw [hostWrite_frame hx]
    · exact hbusy
    · exact hpassive
  · exact inv_endTick_of_notBusy hi hbusy

/-- A step in flight, with the invariant before it. -/
theorem step_of_inv {s : State} (hi : Inv s) (hbusy : busy s = true) (hrst : rstLevel s = false)
    (hports : PortsQuiet s) : ∃ t, step s = .next (endTick t) ∧ transactionTick (beginTick s) = .next t
      ∧ TickInFlight (beginTick s) t := by
  obtain ⟨t, ht, hf⟩ := transactionTick_of_inv (inv_beginTick hi) (by simpa using hbusy)
  obtain ⟨hlen, hL, hcode, -⟩ := inv_operandsHeld hi hbusy
  refine ⟨t, ?_, ht, hf⟩
  rw [step_of_transaction hrst hbusy hports (memRead_eq_some (by omega)) hcode, ht, andThen_next]

/-- The same from the step's answer. -/
theorem tickInFlight_of_step {s t : State} (hi : Inv s) (hbusy : busy s = true) (hrst : rstLevel s = false)
    (h : step s = .next t) : ∃ u, t = endTick u ∧ transactionTick (beginTick s) = .next u
      ∧ TickInFlight (beginTick s) u := by
  obtain ⟨hports, -⟩ := step_next_of_busy hrst hbusy h
  obtain ⟨u, hu, htick, hf⟩ := step_of_inv hi hbusy hrst hports
  cases hu.symm.trans h
  exact ⟨u, rfl, htick, hf⟩

/-- Settles O43: by the tick of reset, the tick in flight and the tick of a free engine. -/
theorem stepKeepsTheInvariant : Obligations.StepKeepsTheInvariant := by
  unfold Obligations.StepKeepsTheInvariant
  intro s t hi h
  rcases step_next h with ⟨-, rfl⟩ | ⟨hrst, u, hu, rfl⟩
  · obtain ⟨hcmd, hreply, -, -⟩ := memory_wf_iff.1 (inv_mem hi)
    refine inv_of_notBusy (memory_wf_iff.2 ⟨hcmd, hreply, bufferOf_wf _, ?_⟩) rfl ⟨rfl, rfl, rfl, rfl, rfl, rfl⟩
    simp [rstTick_fields, freeScratch, bufferOf_size]
  · cases hbusy : busy s with
    | true =>
      obtain ⟨v, hv, -, hf⟩ := tickInFlight_of_step hi hbusy hrst h
      rw [hv]
      exact hf.inv
    | false => exact inv_tickWork_of_notBusy (inv_beginTick hi) (by simpa using hbusy) hu

/-! #### No fault, and the end of a transaction (R44, R30, R162, R184) -/

theorem rejectedCode_ne_fault (code : Byte) (s : State) (e : Fault) : rejectedCode code s ≠ .fault e := by
  cases hp : s.phase with
  | idle =>
    cases hc : commandCode s.mem with
    | none => simp [rejectedCode, hp, withCode, hc]
    | some c => by_cases h : c = code <;> simp [rejectedCode, hp, withCode, hc, h]
  | _ => simp [rejectedCode, hp]

theorem hostWrite_ne_fault (a : HostAccess) (s : State) (e : Fault) : hostWrite a s ≠ .fault e := by
  cases a with
  | decodePoll => nofun
  | writeReply i v => cases h : memWrite s.mem.reply i v <;> simp [hostWrite, h]
  | writeCmd i v => cases h : memWrite s.mem.cmd i v <;> simp [hostWrite, h]

/-- Only the transaction can fault in the work of a tick. -/
theorem transactionTick_of_tickWork_fault {s : State} {e : Fault} (h : tickWork s = .fault e) :
    transactionTick s = .fault e := by
  have hrun (hx : execRunCommand s = .fault e) : transactionTick s = .fault e := by
    cases hc : commandCode s.mem with
    | none => simp [execRunCommand, hc] at hx
    | some code =>
      rw [execRunCommand_eq hc] at hx
      split at hx
      · exact hx
      · exact absurd hx (rejectedCode_ne_fault code s e)
  cases hf : fetch s <;> simp only [tickWork, hf] at h
  case run i =>
    rcases fetch_run hf with ⟨rfl, -, -, -, hbusy⟩ | ⟨rfl, -⟩ | ⟨rfl, -⟩ | ⟨_, _, _, _, rfl, -⟩
    · rw [show exec .begin s = execBegin s from rfl, execBegin_of_notBusy hbusy] at h
      cases h
    · exact hrun h
    · exact hrun h
    · cases h
  case write a => exact absurd h (hostWrite_ne_fault a s e)
  case quiet => cases h
  case stop r => cases h

/-- From a state with the invariant the transaction does not fault, the accept tick included. -/
theorem transactionTick_ne_fault {s : State} (hi : Inv s) (e : Fault) : transactionTick s ≠ .fault e := by
  intro h
  cases hbusy : busy s with
  | true =>
    obtain ⟨t, ht, -⟩ := transactionTick_of_inv hi hbusy
    rw [h] at ht
    cases ht
  | false =>
    rcases busy_eq_false_iff.1 hbusy with hp | hp <;> simp only [transactionTick, hp] at h
    · cases h
    · obtain ⟨-, hreply, -, -⟩ := memory_wf_iff.1 (inv_mem hi)
      cases hproblem : operandProblem s with
      | some problem => simp [acceptCommand, hproblem] at h
      | none =>
        obtain ⟨-, hroom, -⟩ := operandProblem_eq_none_iff.1 hproblem
        obtain ⟨reply, hfill, -⟩ := zeroFill_spec hreply s.replySize hroom
        simp only [acceptCommand, hproblem, hfill, firstBytes_eq_some (Nat.le_refl s.mem.cmd.size), execSendCommand,
          prepareDecoder_frame, latchOperands_fields, hp] at h
        split at h
        · cases h
        · split at h <;> cases h

/-- Settles O44: a fault of the step is a fault of the transaction. -/
theorem noAccessOutOfRange : Obligations.NoAccessOutOfRange := by
  unfold Obligations.NoAccessOutOfRange
  intro s e hi h
  cases hrst : rstLevel s with
  | true => simp [step, hrst] at h
  | false =>
    rw [step_of_noRst hrst] at h
    cases hw : tickWork (beginTick s) with
    | next t => simp [hw] at h
    | refused r => simp [hw] at h
    | fault e' => exact transactionTick_ne_fault (inv_beginTick hi) e' (transactionTick_of_tickWork_fault hw)

/-- Settles O45: the two ends of a tick in flight, with the invariant behind it. -/
theorem everyReturnLeavesTheEngineReady : Obligations.EveryReturnLeavesTheEngineReady := by
  unfold Obligations.EveryReturnLeavesTheEngineReady
  intro s t hi hbusy hrst h
  obtain ⟨u, rfl, -, hf⟩ := tickInFlight_of_step hi hbusy hrst h
  rcases hf.ends with ⟨hdone, hp⟩ | ⟨hdone, hon⟩
  · refine ⟨fun _ => ⟨by simpa using hp, inv_passive hf.inv (busy_eq_false_iff.2 (.inr (by simpa using hp)))⟩,
      fun hn => ?_⟩
    simp [hdone] at hn
  · refine ⟨fun hn => ?_, fun _ => (busy_congr (by simp)).trans hon⟩
    simp [hdone] at hn

/-- Settles O46: what a tick in flight keeps, and the tick's beginning with the host blocked. -/
theorem transactionKeepsToItsBuffers : Obligations.TransactionKeepsToItsBuffers := by
  unfold Obligations.TransactionKeepsToItsBuffers
  intro s t hi hbusy hrst h
  obtain ⟨u, rfl, -, hf⟩ := tickInFlight_of_step hi hbusy hrst h
  obtain ⟨hmem, hsize, hscript, -⟩ := beginTick_of_busy hbusy
  have hk := hf.keeps
  have hbehind := hk.behind
  simp only [beginTick_frame, hmem] at hbehind
  exact ⟨by simpa [hmem] using hk.outside.cmd, by simpa [hmem] using hk.room, hbehind,
    by simpa [hscript] using hk.outside.script, by simpa using hk.outside.report,
    by simpa [hsize] using hk.outside.replySize⟩

/-! #### The receiver while no handler runs (R87, R100, R189) -/

/-- The Interrupt variant's receiver is as it was: the Transaction State, the scratch, the saved bits and the flag. -/
structure ReceiverKept (s t : State) : Prop where
  bitCounter : t.bitCounter = s.bitCounter
  byteCounter : t.byteCounter = s.byteCounter
  scratch : t.mem.scratch = s.mem.scratch
  savedEnable : t.savedEnable = s.savedEnable
  savedPending : t.savedPending = s.savedPending
  timeoutFlag : t.timeoutFlag = s.timeoutFlag

theorem receiverKept_frameTick {s : State} (hgie : s.gieInhibit = true) : ReceiverKept s (frameTick s) := by
  constructor
  case timeoutFlag =>
    rw [frameTick, countdownTick_timeoutFlag_of_inhibited (by simpa using hgie)]
    simp
  all_goals simp [frameTick]

theorem receiverKept_firstEdgeTick {s t : State} (h : firstEdgeTick s = .next t) : ReceiverKept s t := by
  rcases firstEdgeTick_next h with ⟨-, rfl⟩ | ⟨-, rfl⟩ <;> exact ⟨rfl, rfl, rfl, rfl, rfl, rfl⟩

theorem receiverKept_pollTick {s t : State} (hi : Inv s) (hphase : s.phase = .pollRx) (h : pollTick s = .next t) :
    ReceiverKept s t := by
  rcases pollTick_next h with ⟨-, rfl⟩ | ⟨-, -, rfl⟩ | ⟨-, -, hb⟩
  · exact ⟨rfl, rfl, rfl, rfl, rfl, rfl⟩
  · exact ⟨rfl, rfl, rfl, rfl, rfl, rfl⟩
  · obtain ⟨⟨⟨-, -, -, -, -, hr, -⟩, -⟩, hn, -⟩ := inv_pollRx hi hphase
    obtain ⟨reply, hb', -⟩ := bitBoundary_eq_boundary (inv_mem hi) hn hr
    cases hb'.symm.trans hb
    constructor <;> simp

/-- A tick of `WAIT` stays there or ends the call. -/
theorem waitTick_regime {s t : State} (hi : Inv s) (hphase : s.phase = .wait) (h : waitTick s = .next t) :
    regimeOf t.phase ≠ .suppressed := by
  obtain ⟨u, v, -, hu, hv, -, hcases⟩ := waitTick_of_inv hi hphase
  cases hv.symm.trans h
  obtain ⟨scratch, bits, bytes, pending, due, rfl⟩ := hu.frame
  rcases hcases with ⟨-, -, rfl⟩ | ⟨-, reply, rfl, -⟩
  · simp [hphase, regimeOf]
  · simp [finished, regimeOf]

/-- A tick from the suppressed regime that does not open the receiver of the Interrupt variant leaves it alone. -/
theorem receiverKept_transactionTick {s t : State} (hi : Inv s) (hreg : regimeOf s.phase = .suppressed)
    (h : transactionTick s = .next t) (hstay : s.cfg.decoder = .polling ∨ regimeOf t.phase = .suppressed) :
    ReceiverKept s t := by
  cases hp : s.phase <;> simp only [hp, regimeOf, reduceCtorEq] at hreg <;> simp only [transactionTick, hp] at h
  case send =>
    by_cases hj : s.txTick + 1 < frameTicks s.cfg s.cmdLen
    · obtain ⟨hheld, hgie, -⟩ := inv_send hi hp
      cases (sendTick_eq_frameTick hheld hp hj).symm.trans h
      exact receiverKept_frameTick hgie
    · rw [sendTick_of_entry hj] at h
      cases hd : s.cfg.decoder with
      | polling =>
        rw [receiveEntry_of_polling hd] at h
        obtain ⟨h1, h2, h3, h4, h5, h6⟩ := receiverKept_firstEdgeTick h
        exact ⟨h1, h2, h3, h4, h5, h6⟩
      | interrupt =>
        rw [receiveEntry_of_interrupt hd] at h
        have hopen := waitTick_regime (inv_enterWait hi hp hd) rfl h
        simp [hd, hopen] at hstay
  case firstEdge => exact receiverKept_firstEdgeTick h
  case pollRx => exact receiverKept_pollTick hi hp h

theorem regimeOf_eq_suppressed_iff {p : Phase} :
    regimeOf p = .suppressed ↔ p = .send ∨ p = .firstEdge ∨ p = .pollRx := by
  cases p <;> simp [regimeOf]

/-- Settles O26: behind such a tick the invariant of `SEND` or of the Polling phases holds. -/
theorem suppressedRegimeRunsNoHandler : Obligations.SuppressedRegimeRunsNoHandler := by
  unfold Obligations.SuppressedRegimeRunsNoHandler
  intro s t hi hrst hreg h hreg'
  have hbusy : busy s = true := by
    rcases regimeOf_eq_suppressed_iff.1 hreg with hp | hp | hp <;> simp [busy, hp]
  obtain ⟨u, rfl, hu, hf⟩ := tickInFlight_of_step hi hbusy hrst h
  have hk := receiverKept_transactionTick (inv_beginTick hi) (by simpa using hreg) hu (.inr (by simpa using hreg'))
  have hquiet : (endTick u).armed = false ∧ (endTick u).samplePending = false := by
    rcases regimeOf_eq_suppressed_iff.1 hreg' with hp | hp | hp
    · obtain ⟨-, -, harmed, hpending, -⟩ := inv_send hf.inv hp
      exact ⟨harmed, hpending⟩
    · obtain ⟨-, -, -, -, harmed, hpending, -⟩ := inv_firstEdge hf.inv hp
      exact ⟨harmed, hpending⟩
    · obtain ⟨⟨-, -, -, -, harmed, hpending, -⟩, -⟩ := inv_pollRx hf.inv hp
      exact ⟨harmed, hpending⟩
  exact ⟨hquiet.1, hquiet.2, by simpa using hk.timeoutFlag, by simpa using hk.bitCounter,
    by simpa using hk.byteCounter, by simpa using hk.scratch⟩

/-- What the invariant says of a Polling engine, in any phase (R100). -/
theorem polling_of_inv {s : State} (hi : Inv s) (hd : s.cfg.decoder = .polling) :
    s.armed = false ∧ s.samplePending = false ∧ s.suppress = false ∧ s.cntRunning = false
      ∧ (busy s = true → s.gieInhibit = true) := by
  cases hbusy : busy s with
  | false =>
    obtain ⟨-, harmed, hpending, -, hsuppress, hstop⟩ := inv_passive hi hbusy
    exact ⟨harmed, hpending, hsuppress, hstop, nofun⟩
  | true =>
    have hpolling (h : PollingInv s) : s.armed = false ∧ s.samplePending = false ∧ s.suppress = false
        ∧ s.cntRunning = false ∧ (true = true → s.gieInhibit = true) := by
      obtain ⟨-, -, -, hgie, harmed, hpending, hsuppress, hstop⟩ := h
      exact ⟨harmed, hpending, hsuppress, hstop, fun _ => hgie⟩
    rcases busy_eq_true_iff.1 hbusy with hp | hp | hp | hp
    · obtain ⟨-, hgie, harmed, hpending, -, -, -, -, hoff⟩ := inv_send hi hp
      exact ⟨harmed, hpending, (hoff hd).1, (hoff hd).2, fun _ => hgie⟩
    · obtain ⟨-, hinterrupt, -⟩ := inv_wait hi hp
      rw [hd] at hinterrupt
      cases hinterrupt
    · exact hpolling (inv_firstEdge hi hp)
    · exact hpolling (inv_pollRx hi hp).1

/-- The counters, the scratch and the saved bits: what R100 says the Polling variant does not write. -/
abbrev TransactionStateKept (s t : State) : Prop :=
  t.bitCounter = s.bitCounter ∧ t.byteCounter = s.byteCounter ∧ t.mem.scratch = s.mem.scratch
    ∧ t.savedEnable = s.savedEnable ∧ t.savedPending = s.savedPending

theorem transactionStateKept_of_notBusy {s t : State} (hi : Inv s) (hd : s.cfg.decoder = .polling)
    (hbusy : busy s = false) (h : tickWork s = .next t) : TransactionStateKept s t := by
  rcases tickWork_of_notBusy hbusy h with rfl | hx | ⟨report, rfl⟩ | ⟨a, hx⟩ | rfl
  · exact ⟨rfl, rfl, rfl, rfl, rfl⟩
  · rcases execRunCommand_of_notBusy hi hbusy hx with ⟨reply, -, rfl, -⟩ | ⟨-, rfl⟩
    · obtain ⟨h1, h2, -, -, h5, h6, -⟩ := (firstTick_receiver reply s).2 hd
      exact ⟨h5, h6, by simp [firstTick_mem, hd], h1, h2⟩
    · exact ⟨rfl, rfl, rfl, rfl, rfl⟩
  · exact ⟨rfl, rfl, rfl, rfl, rfl⟩
  · rcases hostWrite_next hx with ⟨-, rfl⟩ | ⟨_, _, _, -, -, rfl⟩ | ⟨_, _, _, -, -, rfl⟩ <;>
      exact ⟨rfl, rfl, rfl, rfl, rfl⟩
  · exact ⟨rfl, rfl, rfl, rfl, rfl⟩

theorem transactionStateKept_of_busy {s t : State} (hi : Inv s) (hd : s.cfg.decoder = .polling)
    (hbusy : busy s = true) (h : transactionTick s = .next t) : TransactionStateKept s t := by
  have hreg : regimeOf s.phase = .suppressed := by
    rcases busy_eq_true_iff.1 hbusy with hp | hp | hp | hp
    · simp [hp, regimeOf]
    · obtain ⟨-, hinterrupt, -⟩ := inv_wait hi hp
      rw [hd] at hinterrupt
      cases hinterrupt
    · simp [hp, regimeOf]
    · simp [hp, regimeOf]
  obtain ⟨h1, h2, h3, h4, h5, -⟩ := receiverKept_transactionTick hi hreg h (.inl hd)
  exact ⟨h1, h2, h3, h4, h5⟩

/-- Settles O31: the invariant behind the step, and what its work keeps. -/
theorem pollingLeavesTheInterruptPathAlone : Obligations.PollingLeavesTheInterruptPathAlone := by
  unfold Obligations.PollingLeavesTheInterruptPathAlone
  intro s t hi hd hrst h
  obtain ⟨harmed, hpending, hsuppress, hstop, hgie⟩ :=
    polling_of_inv (stepKeepsTheInvariant s t hi h) ((congrArg Config.decoder (configurationIsFixed s t h)).trans hd)
  have hkept : TransactionStateKept s t := by
    cases hbusy : busy s with
    | true =>
      obtain ⟨u, rfl, hu, -⟩ := tickInFlight_of_step hi hbusy hrst h
      simpa [TransactionStateKept] using
        transactionStateKept_of_busy (inv_beginTick hi) (by simpa using hd) (by simpa using hbusy) hu
    | false =>
      obtain ⟨u, hu, rfl, -⟩ := step_next_of_noRst hrst h
      simpa [TransactionStateKept] using
        transactionStateKept_of_notBusy (inv_beginTick hi) (by simpa using hd) (by simpa using hbusy) hu
  obtain ⟨h1, h2, h3, h4, h5⟩ := hkept
  exact ⟨harmed, hpending, hsuppress, hstop, h1, h2, h3, h4, h5, hgie⟩

/-! #### The step in `WAIT` and in `SEND`, written out -/

/-- Settles O27: the two ends of the tick of `WAIT`; success is the reply complete behind the handler. -/
theorem completionBeatsTimeout : Obligations.CompletionBeatsTimeout := by
  unfold Obligations.CompletionBeatsTimeout
  intro s hi hphase hrst hports
  have hbusy : busy s = true := busy_eq_true_iff.2 (.inr (.inl hphase))
  obtain ⟨t, hstep, htick, -⟩ := step_of_inv hi hbusy hrst hports
  obtain ⟨u, v, -, hu, hv, -, hcases⟩ := waitTick_of_inv (inv_beginTick hi) (by simpa using hphase)
  simp only [transactionTick, beginTick_frame, hphase] at htick
  cases hv.symm.trans htick
  have hcompletes : CompletesNow (beginTick s) ↔ CompletesNow s := by simp [CompletesNow]
  have hcomplete := hu.complete.trans hcompletes
  have hbytes := hu.bytes
  obtain ⟨scratch, bits, bytes, pending, due, rfl⟩ := hu.frame
  simp only [withReceiver_frame, beginTick_frame] at hcomplete hbytes
  rw [hcompletes] at hcases
  refine ⟨_, hstep, fun hc => ?_, fun hnc hdeadline => ?_, fun hnc hbefore => ?_⟩
  · rcases hcases with ⟨hnc, -⟩ | ⟨-, reply, rfl, -⟩
    · exact absurd hc hnc
    · have hfull := hcomplete.2 hc
      simp [finished, replyComplete, hfull]
  · have hshort : bytes ≠ s.replyLen := hcomplete.not.2 hnc
    rcases hcases with ⟨-, hnd, -⟩ | ⟨-, reply, rfl, -⟩
    · simp only [beginTick_frame] at hnd
      exact absurd hdeadline hnd
    · have hlt : bytes < s.replyLen := by omega
      simp [finished, replyComplete, hshort, hlt]
  · rcases hcases with ⟨-, -, rfl⟩ | ⟨hend, -⟩
    · simp [hphase, beginTick_of_busy hbusy]
    · simp only [beginTick_frame] at hend
      exact absurd hbefore (by have := hend.resolve_left hnc; omega)

/-- Settles O34: the step is the tick of the frame, which emits the symbol. -/
theorem stepRunsTheSymbolInFlight : Obligations.StepRunsTheSymbolInFlight := by
  unfold Obligations.StepRunsTheSymbolInFlight
  intro s hi hphase hrst hports hj
  have hbusy : busy s = true := busy_eq_true_iff.2 (.inl hphase)
  obtain ⟨t, hstep, htick, -⟩ := step_of_inv hi hbusy hrst hports
  have hphase' : (beginTick s).phase = .send := by simpa using hphase
  simp only [transactionTick, hphase'] at htick
  cases (sendTick_eq_frameTick (inv_operandsHeld (inv_beginTick hi) (by simpa using hbusy)) hphase'
    (by simpa using hj)).symm.trans htick
  have hsent : sentBytes (beginTick s) = sentBytes s := by simp [sentBytes, beginTick_of_busy hbusy]
  rw [hstep, exec_symbolInstr, sendSymbol_of_send hphase', andThen_next, frameTick, hsent]
  simp

end Sys2Proof.Machine

/-! ### Runs of a call

`OfCall s n t` is what the first `n` ticks of the call on the ports of `s` keep, up to and including its return. The
move into the receive phase at `t_a` happens at the head of a tick, so the state before that tick may be replaced by the one
behind the move: every receive phase then starts from a state of its own phase. -/

namespace Sys2Proof.Machine

/-! #### Runs -/

theorem runTicks_one (s : State) : runTicks 1 s = step s := by
  rw [runTicks_succ]
  cases step s <;> rfl

theorem runTicks_add (j k : Nat) (s : State) : runTicks (j + k) s = andThen (runTicks j s) (runTicks k) := by
  induction j generalizing s with
  | zero => rw [Nat.zero_add]; rfl
  | succ j ih =>
    rw [Nat.succ_add, runTicks_succ, runTicks_succ]
    cases step s with
    | next t => exact ih t
    | fault e => rfl
    | refused e => rfl

theorem runTicks_trans {j k : Nat} {s t u : State} (h : runTicks j s = .next t) (h' : runTicks k t = .next u) :
    runTicks (j + k) s = .next u := by
  rw [runTicks_add, h, andThen_next, h']

theorem runTicks_step {k : Nat} {s t u : State} (h : runTicks k s = .next t) (h' : step t = .next u) :
    runTicks (k + 1) s = .next u :=
  runTicks_trans h ((runTicks_one t).trans h')

/-- Two states whose next tick is the same run the same from it on. -/
theorem runTicks_congr {s t : State} (h : step s = step t) {k : Nat} (hk : 1 ≤ k) : runTicks k s = runTicks k t := by
  obtain ⟨k, rfl⟩ := Nat.exists_eq_add_of_le' hk
  rw [runTicks_succ, runTicks_succ, h]

/-! #### The surroundings of a run -/

/-- The Controller's drive in tick `n` from `s` on. -/
abbrev DriveAt (s : State) (n : Nat) (d : Drive) : Prop := (s.env.map EnvTick.drvC)[n]? = some d

theorem driveAt_of_sends {drives : List Drive} {s : State} (h : ControllerSends drives s) {n : Nat} {d : Drive}
    (hd : drives[n]? = some d) : DriveAt s n d := by
  obtain ⟨rest, hrest⟩ := h
  rw [DriveAt, ← hrest, List.getElem?_append_left (List.getElem?_eq_some_iff.1 hd).1, hd]

/-- The first entry still in store is the one of the coming tick. -/
theorem head?_env_of_drop {s t : State} {n : Nat} (henv : t.env = s.env.drop n) : t.env.head? = s.env[n]? := by
  rw [henv, List.head?_drop]

theorem controllerDrive_of_driveAt {s t : State} {n : Nat} {d : Drive} (henv : t.env = s.env.drop n)
    (h : DriveAt s n d) : controllerDrive t = d := by
  have hhead := head?_env_of_drop henv
  rw [DriveAt, List.getElem?_map, ← hhead] at h
  cases ht : t.env with
  | nil => simp [ht] at h
  | cons e rest => simpa [controllerDrive, ht] using h

/-- The entry of tick `n` is among the first `k`. -/
theorem mem_take_of_head? {s t : State} {n k : Nat} (henv : t.env = s.env.drop n) (hn : n < k) {e : EnvTick}
    (he : t.env.head? = some e) : e ∈ s.env.take k := by
  rw [head?_env_of_drop henv] at he
  exact List.mem_of_getElem? ((List.getElem?_take_of_lt hn).trans he)

theorem rstLevel_of_noReset {s t : State} {n k : Nat} (h : NoReset k s) (hn : n < k) (henv : t.env = s.env.drop n) :
    rstLevel t = false := by
  cases ht : t.env with
  | nil => simp [rstLevel, ht]
  | cons e rest => simpa [rstLevel, ht] using h e (mem_take_of_head? henv hn (by simp [ht]))

theorem sampleSources_of_quiet {s : State} (h : ∀ e, s.env.head? = some e → e.sources = none) :
    sampleSources s = s := by
  rcases henv : s.env with _ | ⟨⟨d, rst, _ | ⟨enable, pending⟩⟩, rest⟩
  · simp [sampleSources, henv]
  · simp [sampleSources, henv]
  · have := h _ (by rw [henv]; rfl)
    cases this

theorem heldSources_endTick (s : State) : heldSources (endTick s) = heldSources s := rfl

/-- While their own side is quiet the sources' bits stay through a tick's beginning. -/
theorem heldSources_beginTick {s t : State} {n k : Nat} (h : SourcesQuiet k s) (hn : n < k)
    (henv : t.env = s.env.drop n) (hblocked : busy t = true ∨ requestPresent t = true) :
    heldSources (beginTick t) = heldSources t := by
  rw [beginTick_of_blocked hblocked, sampleSources_of_quiet (s := { t with done := false })
    fun e he => h e (mem_take_of_head? henv hn he)]
  rfl

theorem noReset_mono {j k : Nat} {s : State} (h : NoReset k s) (hjk : j ≤ k) : NoReset j s :=
  fun e he => h e (List.take_subset_take_left _ hjk he)

theorem sourcesQuiet_mono {j k : Nat} {s : State} (h : SourcesQuiet k s) (hjk : j ≤ k) : SourcesQuiet j s :=
  fun e he => h e (List.take_subset_take_left _ hjk he)

/-! #### The ticks of a call -/

/-- What the first `n` ticks of the call on the ports of `s` keep: the invariant, the operands, the clock and the
inputs, the reply buffer behind the bytes asked for, the line as it was driven, and the competing sources' bits while their own
side is quiet. In `WAIT` the deadline is not past, unless it was at `t_a`. -/
structure OfCall (s : State) (n : Nat) (t : State) : Prop where
  inv : Inv t
  ports : PortsQuiet t
  cfg : t.cfg = s.cfg
  cmd : t.mem.cmd = s.mem.cmd
  now : t.now = s.now + n
  env : t.env = s.env.drop n
  t0 : t.t0 = s.now
  replyLen : t.replyLen = s.replySize
  behind : ∀ i, s.replySize ≤ i → t.mem.reply.byteAt i = s.mem.reply.byteAt i
  line : ∀ m d, n = m + 1 → DriveAt s m d → t.prevLine = resolve t.drv d
  sources : SourcesQuiet n s → heldSources t = heldSources s
  waiting : t.phase = .wait → n ≤ max s.cfg.timeoutTicks (callFrameTicks s)

/-- The call is still in flight. -/
structure InFlight (s : State) (n : Nat) (t : State) : Prop extends OfCall s n t where
  busy : busy t = true
  done : t.done = false

/-- A tick in flight is one more tick of the call, which goes on or returns. -/
theorem InFlight.tick {s t : State} {n : Nat} (h : InFlight s n t) (hrst : NoReset (n + 1) s) :
    ∃ u, step t = .next (endTick u) ∧ transactionTick (beginTick t) = .next u ∧ OfCall s (n + 1) (endTick u)
      ∧ ((u.done = true ∧ u.phase = .idle) ∨ InFlight s (n + 1) (endTick u)) := by
  obtain ⟨u, hstep, htick, hf⟩ :=
    step_of_inv h.inv h.busy (rstLevel_of_noReset hrst (Nat.lt_succ_self n) h.env) h.ports
  obtain ⟨hmem, -⟩ := beginTick_of_busy h.busy
  have hk := hf.keeps
  have hcall : OfCall s (n + 1) (endTick u) := by
    constructor
    case inv => exact hf.inv
    case ports => exact ⟨rfl, rfl, rfl⟩
    case cfg => simpa [h.cfg] using hk.outside.cfg
    case cmd => simpa [hmem, h.cmd] using hk.outside.cmd
    case now => simp [hk.outside.now, h.now, Nat.add_assoc]
    case env => simp [hk.outside.env, h.env]
    case t0 => simpa [h.t0] using hk.t0
    case replyLen => simpa [h.replyLen] using hk.replyLen
    case behind =>
      intro i hi
      have hb := hk.behind i
      simp only [beginTick_frame, hmem, h.replyLen] at hb
      exact (hb hi).trans (h.behind i hi)
    case line =>
      rintro m d hm hd
      cases hm
      have hdrive : controllerDrive u = d :=
        controllerDrive_of_driveAt (by simpa [h.env] using hk.outside.env) hd
      show resolve u.drv (controllerDrive u) = _
      rw [hdrive]
      rfl
    case sources =>
      intro hq
      rw [heldSources_endTick, hk.sources,
        heldSources_beginTick hq (Nat.lt_succ_self n) h.env (.inl h.busy)]
      exact h.sources (sourcesQuiet_mono hq (Nat.le_succ n))
    case waiting =>
      intro hp
      have hd := hf.deadline (by simpa using hp)
      simp only [beginTick_frame, h.now, h.t0, h.cfg] at hd
      omega
  refine ⟨u, hstep, htick, hcall, hf.ends.imp id fun ⟨hdone, hbusy⟩ => ⟨hcall, ?_, ?_⟩⟩
  · exact (busy_congr (by simp)).trans hbusy
  · simpa using hdone

/-! #### The accept tick and the frame -/

/-- In the frame: tick `j` has been sent, the reply is zero-filled and the scratch clear. -/
structure Sending (s : State) (j : Nat) (t : State) : Prop extends InFlight s (j + 1) t where
  phase : t.phase = .send
  txTick : t.txTick = j
  zeroed : ∀ i, i < s.replySize → t.mem.reply.byteAt i = 0
  cleared : s.cfg.decoder = .interrupt → ∀ i, t.mem.scratch.byteAt i = 0

/-- The step of the accept tick. -/
theorem step_of_legalCall {s : State} (h : LegalCall s) (hrst : rstLevel s = false) :
    ∃ reply, step s = .next (endTick (firstTick reply (beginTick s))) ∧ reply.wf = true
      ∧ reply.size = s.mem.reply.size
      ∧ (∀ i, reply.byteAt i = if i < s.replySize then 0 else s.mem.reply.byteAt i)
      ∧ OperandsLegal (beginTick s) ∧ (beginTick s).mem = s.mem ∧ (beginTick s).replySize = s.replySize := by
  obtain ⟨hi, hphase, hbegin, hrun, haccess, hlegal⟩ := h
  obtain ⟨hblocked, hstep⟩ := stepRunsTheRequestedInstruction s .runCommand hrst
    (busy_eq_false_iff.2 (.inr hphase)) haccess (by rw [hbegin, hrun]; rfl)
  have hmem : (beginTick s).mem = s.mem := by simp [hblocked]
  have hsize : (beginTick s).replySize = s.replySize := by simp [hblocked]
  have hlegal' : OperandsLegal (beginTick s) := by simpa [OperandsLegal, hmem, hsize] using hlegal
  have hphase' : (beginTick s).phase = .idle := by simpa using hphase
  obtain ⟨reply, haccept, hw, hroom, hread⟩ :=
    acceptCommand_of_legal hphase' (by simpa [hmem] using inv_mem hi) hlegal'
  rw [hmem] at hroom
  rw [hmem, hsize] at hread
  refine ⟨reply, ?_, hw, hroom, hread, hlegal', hmem, hsize⟩
  obtain ⟨hcmd, hcode, -⟩ := hlegal'
  rw [hstep, exec_runCommand_of_supported (memRead_eq_some hcmd) hcode]
  simp only [transactionTick, hphase', haccept, andThen_next]

theorem heldSources_firstTick {s : State} (h : s.suppress = false) (reply : Buffer) :
    heldSources (firstTick reply s) = heldSources s := by
  obtain ⟨hinterrupt, hpolling⟩ := firstTick_receiver reply s
  obtain ⟨-, -, -, -, -, -, -, -, -, -, -, hpending⟩ := firstTick_frame reply s
  cases hd : s.cfg.decoder with
  | interrupt =>
    obtain ⟨h1, h2, -, h4, -⟩ := hinterrupt hd
    simp [heldSources, h, h1, h2, h4]
  | polling =>
    obtain ⟨-, -, h3, h4, -⟩ := hpolling hd
    simp [heldSources, h, h3, h4, hpending]

/-- The accept tick is tick 0 of the frame. -/
theorem sending_of_legalCall {s : State} (h : LegalCall s) (hrst : NoReset 1 s) :
    ∃ t, step s = .next t ∧ Sending s 0 t := by
  obtain ⟨reply, hstep, hw, hroom, hread, hlegal, hmem, hsize⟩ :=
    step_of_legalCall h (rstLevel_of_noReset hrst Nat.zero_lt_one (by simp))
  obtain ⟨hi, hphase, -, hrun, -, -⟩ := h
  have hi' := inv_beginTick hi
  have hfree : busy (beginTick s) = false := by simpa using busy_eq_false_iff.2 (.inr hphase)
  have hpassive := inv_passive hi' hfree
  obtain ⟨hp, htx, -, -, hlen, hn, ht0, hcfg, hnow, -, hdone, -⟩ := firstTick_frame reply (beginTick s)
  have hmem' := firstTick_mem reply (beginTick s)
  have henv : (firstTick reply (beginTick s)).env = s.env := by simp [firstTick]
  refine ⟨_, hstep, ⟨⟨?_, ?_, ?_⟩, hp, htx, ?_, ?_⟩⟩
  · constructor
    case inv => exact inv_firstTick (inv_mem hi') hpassive hlegal hw (by rw [hroom, hmem])
    case ports => exact ⟨rfl, rfl, rfl⟩
    case cfg => simpa using hcfg
    case cmd => simp [hmem', hmem]
    case now => simp [hnow]
    case env => simp [henv]
    case t0 => simpa using ht0
    case replyLen => simpa [hsize] using hn
    case behind =>
      intro i hle
      simp [hmem', hread i, Nat.not_lt.2 hle]
    case line =>
      rintro m d hm hd
      cases hm
      have hdrive : controllerDrive (firstTick reply (beginTick s)) = d :=
        controllerDrive_of_driveAt (s := s) (n := 0) (by simpa using henv) hd
      show resolve _ (controllerDrive (firstTick reply (beginTick s))) = _
      rw [hdrive]
      rfl
    case sources =>
      intro hq
      have hsuppress : (beginTick s).suppress = false := by obtain ⟨-, -, -, -, hs, -⟩ := hpassive; exact hs
      rw [heldSources_endTick, heldSources_firstTick hsuppress, heldSources_beginTick hq Nat.zero_lt_one (by simp) (.inr _)]
      simp [requestPresent, hrun]
    case waiting => simp [hp]
  · simp [busy, hp]
  · simpa using hdone
  · intro i hlt
    simp [hmem', hread i, hlt]
  · intro hd i
    simp [hmem', hd, zeroBuffer_byteAt]

theorem OfCall.cmdLen {s t : State} {n : Nat} (h : OfCall s n t) (hbusy : Machine.busy t = true) :
    t.cmdLen = s.mem.cmd.size := by
  obtain ⟨hlen, -⟩ := inv_operandsHeld h.inv hbusy
  rw [hlen, h.cmd]

/-- The next tick of the frame. -/
theorem Sending.next {s t : State} {j : Nat} (h : Sending s j t) (hrst : NoReset (j + 2) s)
    (hj : j + 1 < callFrameTicks s) : ∃ u, step t = .next u ∧ Sending s (j + 1) u := by
  obtain ⟨u, hstep, htick, -, hends⟩ := h.tick hrst
  have hphase : (beginTick t).phase = .send := by simpa using h.phase
  have hbusy : busy (beginTick t) = true := by simpa using h.busy
  have hheld := inv_operandsHeld (inv_beginTick h.inv) hbusy
  simp only [transactionTick, hphase] at htick
  have hframe : (beginTick t).txTick + 1 < frameTicks (beginTick t).cfg (beginTick t).cmdLen := by
    simpa [h.txTick, h.cfg, h.cmdLen h.busy, callFrameTicks] using hj
  cases (sendTick_eq_frameTick hheld hphase hframe).symm.trans htick
  obtain ⟨hmem, -⟩ := beginTick_of_busy h.busy
  have hon : InFlight s (j + 2) (endTick (frameTick (beginTick t))) :=
    hends.resolve_left fun hidle => by simp [frameTick] at hidle
  refine ⟨_, hstep, hon, ?_, ?_, ?_, ?_⟩
  · simpa [frameTick] using h.phase
  · simp [frameTick, h.txTick]
  · simpa [frameTick, hmem] using h.zeroed
  · simpa [frameTick] using h.cleared

/-- The frame of a call, tick by tick. -/
theorem sending_of_run {s : State} (h : LegalCall s) {j : Nat} (hrst : NoReset (j + 1) s)
    (hj : j < callFrameTicks s) : ∃ t, runTicks (j + 1) s = .next t ∧ Sending s j t := by
  induction j with
  | zero =>
    obtain ⟨t, hstep, ht⟩ := sending_of_legalCall h hrst
    exact ⟨t, (runTicks_one s).trans hstep, ht⟩
  | succ j ih =>
    obtain ⟨t, hrun, ht⟩ := ih (noReset_mono hrst (Nat.le_succ _)) (Nat.lt_of_succ_lt hj)
    obtain ⟨u, hstep, hu⟩ := ht.next hrst hj
    exact ⟨u, runTicks_step hrun hstep, hu⟩

/-- The pin in the frame, by the formula of R84. -/
theorem Sending.drv {s t : State} {j : Nat} (h : Sending s j t) : t.drv = waveAt s.cfg (callBytes s) j := by
  obtain ⟨-, -, -, -, -, -, hdrv, -⟩ := inv_send h.inv h.phase
  have hsent : sentBytes t = callBytes s := by rw [sentBytes, callBytes, h.cmdLen h.busy, h.cmd]
  rw [hdrv, hsent, h.cfg, h.txTick]

/-- Settles O47: the invariant of `SEND` holds the pin at the formula of R84, tick by tick. -/
theorem callPutsItsFrameOnTheWire : Obligations.CallPutsItsFrameOnTheWire := by
  unfold Obligations.CallPutsItsFrameOnTheWire
  intro s j hcall hrst hj
  obtain ⟨t, hrun, ht⟩ := sending_of_run hcall hrst hj
  obtain ⟨-, hgie, harmed, -⟩ := inv_send ht.inv ht.phase
  refine ⟨t, hrun, ht.phase, ht.txTick, ?_, hgie, harmed, ht.t0, by rw [ht.now, Nat.add_assoc]⟩
  rw [ht.drv]
  exact waveform_getElem? s.cfg (by rwa [callBytes_length])

/-! #### The move into the receive phase -/

theorem callFrameTicks_pos {s : State} (h : LegalCall s) : 1 ≤ callFrameTicks s := by
  obtain ⟨-, -, -, -, -, -, -, -, -, -, hconfig, -⟩ := h
  obtain ⟨-, hstop, -⟩ := configSendable_iff.1 hconfig
  exact hstop.trans (Nat.le_add_left _ _)

/-- The pin is released in the last tick of the frame (R85). -/
theorem waveAt_last {c : Config} (hc : configSendable c = true) (bytes : List Byte) :
    waveAt c bytes (frameTicks c bytes.length - 1) = .released := by
  obtain ⟨-, hstop, -⟩ := configSendable_iff.1 hc
  have hlt : frameTicks c bytes.length - 1 < frameTicks c bytes.length :=
    Nat.sub_lt (hstop.trans (Nat.le_add_left _ _)) Nat.one_pos
  exact Option.some_injective _ ((waveform_getElem? c hlt).symm.trans (frameEndsReleased c bytes hc))

/-- The whole frame is on the wire. -/
theorem frame_of_run {s : State} (h : LegalCall s) (hrst : NoReset (callFrameTicks s) s) :
    ∃ t, runTicks (callFrameTicks s) s = .next t ∧ Sending s (callFrameTicks s - 1) t ∧ t.drv = .released := by
  have hpos := callFrameTicks_pos h
  have hN : callFrameTicks s - 1 + 1 = callFrameTicks s := Nat.sub_add_cancel hpos
  obtain ⟨t, hrun, ht⟩ := sending_of_run h (j := callFrameTicks s - 1) (by rwa [hN]) (by omega)
  rw [hN] at hrun
  obtain ⟨-, -, -, -, -, -, -, -, -, -, hconfig, -⟩ := h
  refine ⟨t, hrun, ht, ?_⟩
  rw [ht.drv, callFrameTicks, ← callBytes_length, waveAt_last hconfig]

/-- At `t_a` the frame is over. -/
theorem Sending.notInFrame {s t : State} (h : Sending s (callFrameTicks s - 1) t) (hpos : 1 ≤ callFrameTicks s) :
    ¬ (beginTick t).txTick + 1 < frameTicks (beginTick t).cfg (beginTick t).cmdLen := by
  have hN : frameTicks s.cfg s.mem.cmd.size = callFrameTicks s := rfl
  simp only [beginTick_frame, h.txTick, h.cfg, h.cmdLen h.busy, hN]
  omega

/-- A move at the head of a tick that neither its beginning nor a tick of reset notices. -/
theorem step_eq_of_entry {t t' : State} (hrst : rstLevel t' = rstLevel t) (hreset : rstTick t' = rstTick t)
    (hbusy : busy t = true) (hbusy' : busy t' = true) (hports : PortsQuiet t) (hports' : PortsQuiet t')
    (hcmd : t'.mem.cmd = t.mem.cmd) (hheld : OperandsHeld t)
    (htick : transactionTick (beginTick t) = transactionTick (beginTick t')) : step t = step t' := by
  cases hr : rstLevel t with
  | true => simp [step, hrst, hr, hreset]
  | false =>
    obtain ⟨hlen, hL, hcode, -⟩ := hheld
    have hread : memRead t.mem.cmd 0 = some (t.mem.cmd.byteAt 0) := memRead_eq_some (by omega)
    rw [step_of_transaction hr hbusy hports hread hcode,
      step_of_transaction (hrst.trans hr) hbusy' hports' (by rw [hcmd]; exact hread) hcode, htick]

theorem sampleSources_enterWait (s : State) : sampleSources (enterWait s) = enterWait (sampleSources s) := by
  rcases henv : s.env with _ | ⟨⟨d, rst, _ | ⟨enable, pending⟩⟩, rest⟩
  · simp [sampleSources, henv]
  · simp [sampleSources, henv]
  · cases h : s.suppress <;> simp [sampleSources, enterWait, henv, h]

theorem sampleSources_enterFirstEdge (s : State) :
    sampleSources (enterFirstEdge s) = enterFirstEdge (sampleSources s) := by
  rcases henv : s.env with _ | ⟨⟨d, rst, _ | ⟨enable, pending⟩⟩, rest⟩
  · simp [sampleSources, henv]
  · simp [sampleSources, henv]
  · cases h : s.suppress <;> simp [sampleSources, enterFirstEdge, henv, h]

theorem transactionTick_of_entry {s t : State} (h : Sending s (callFrameTicks s - 1) t) (hpos : 1 ≤ callFrameTicks s) :
    transactionTick (beginTick t) = receiveEntry (beginTick t) := by
  have hphase : (beginTick t).phase = .send := by simpa using h.phase
  simp only [transactionTick, hphase]
  exact sendTick_of_entry (h.notInFrame hpos)

/-- At `t_a` the Interrupt variant may be taken to be in `WAIT` already. -/
theorem Sending.enterWait {s t : State} (h : Sending s (callFrameTicks s - 1) t) (hpos : 1 ≤ callFrameTicks s)
    (hdrv : t.drv = .released) (hd : s.cfg.decoder = .interrupt) :
    step t = step (Machine.enterWait t) ∧ InFlight s (callFrameTicks s) (Machine.enterWait t) := by
  have hd' : t.cfg.decoder = .interrupt := by rw [h.cfg, hd]
  have hN : callFrameTicks s - 1 + 1 = callFrameTicks s := Nat.sub_add_cancel hpos
  have hbegin : beginTick (Machine.enterWait t) = Machine.enterWait (beginTick t) := by
    rw [beginTick_of_blocked (.inl rfl), beginTick_of_blocked (.inl h.busy)]
    exact sampleSources_enterWait { t with done := false }
  constructor
  · refine step_eq_of_entry rfl rfl h.busy rfl h.ports h.ports rfl (inv_operandsHeld h.inv h.busy) ?_
    rw [transactionTick_of_entry h hpos, receiveEntry_of_interrupt (by simpa using hd'), hbegin]
    rfl
  · have hc := h.toOfCall
    rw [hN] at hc
    obtain ⟨-, hports, hcfg, hcmd, hnow, henv, ht0, hn, hbehind, hline, hsources, -⟩ := hc
    refine ⟨⟨inv_enterWait h.inv h.phase hd', hports, hcfg, hcmd, hnow, henv, ht0, hn, hbehind, fun m d hm hdr => ?_,
      hsources, fun _ => le_max_right _ _⟩, rfl, h.done⟩
    exact (hline m d hm hdr).trans (by rw [hdrv]; rfl)

/-- At `t_a` the Polling variant may be taken to be in `FIRSTEDGE` already. -/
theorem Sending.enterFirstEdge {s t : State} (h : Sending s (callFrameTicks s - 1) t) (hpos : 1 ≤ callFrameTicks s)
    (hdrv : t.drv = .released) (hd : s.cfg.decoder = .polling) :
    step t = step (Machine.enterFirstEdge t) ∧ InFlight s (callFrameTicks s) (Machine.enterFirstEdge t) := by
  have hd' : t.cfg.decoder = .polling := by rw [h.cfg, hd]
  have hN : callFrameTicks s - 1 + 1 = callFrameTicks s := Nat.sub_add_cancel hpos
  have hbegin : beginTick (Machine.enterFirstEdge t) = Machine.enterFirstEdge (beginTick t) := by
    rw [beginTick_of_blocked (.inl rfl), beginTick_of_blocked (.inl h.busy)]
    exact sampleSources_enterFirstEdge { t with done := false }
  constructor
  · refine step_eq_of_entry rfl rfl h.busy rfl h.ports h.ports rfl (inv_operandsHeld h.inv h.busy) ?_
    rw [transactionTick_of_entry h hpos, receiveEntry_of_polling (by simpa using hd'), hbegin]
    rfl
  · have hc := h.toOfCall
    rw [hN] at hc
    obtain ⟨-, hports, hcfg, hcmd, hnow, henv, ht0, hn, hbehind, hline, hsources, -⟩ := hc
    refine ⟨⟨inv_enterFirstEdge h.inv h.phase hd', hports, hcfg, hcmd, hnow, henv, ht0, hn, hbehind,
      fun m d hm hdr => ?_, hsources, nofun⟩, rfl, h.done⟩
    exact (hline m d hm hdr).trans (by rw [hdrv]; rfl)

/-! #### Every call, up to its return -/

/-- From a state in flight, `m` more ticks: the call has returned in one of them, or is in flight behind them. -/
theorem InFlight.run {s t : State} {n : Nat} (h : InFlight s n t) {m : Nat} (hrst : NoReset (n + m) s) :
    (∃ k u, 1 ≤ k ∧ k ≤ m ∧ runTicks k t = .next u ∧ OfCall s (n + k) u ∧ u.done = true ∧ u.phase = .idle)
    ∨ ∃ u, runTicks m t = .next u ∧ InFlight s (n + m) u := by
  induction m with
  | zero => exact .inr ⟨t, rfl, h⟩
  | succ m ih =>
    rcases ih (noReset_mono hrst (Nat.le_succ _)) with ⟨k, u, hk, hkm, hu⟩ | ⟨u, hrun, hu⟩
    · exact .inl ⟨k, u, hk, Nat.le_succ_of_le hkm, hu⟩
    · obtain ⟨v, hstep, -, hcall, ⟨hdone, hp⟩ | hon⟩ := hu.tick hrst
      · exact .inl ⟨m + 1, _, Nat.le_add_left 1 m, Nat.le_refl _, runTicks_step hrun hstep, hcall, by simpa using hdone,
          by simpa using hp⟩
      · exact .inr ⟨_, runTicks_step hrun hstep, hon⟩

/-- No Interrupt transaction is in flight behind its bound. -/
theorem InFlight.le_bound {s t : State} {n : Nat} (h : InFlight s n t) (hd : s.cfg.decoder = .interrupt) :
    n ≤ max s.cfg.timeoutTicks (callFrameTicks s) := by
  have hnot (hp : PollingInv t) : False := by
    obtain ⟨-, hpolling, -⟩ := hp
    rw [h.cfg, hd] at hpolling
    cases hpolling
  rcases busy_eq_true_iff.1 h.busy with hp | hp | hp | hp
  · obtain ⟨-, -, -, -, htx, hnow, -⟩ := inv_send h.inv hp
    rw [h.now, h.t0] at hnow
    rw [h.cfg, h.cmdLen h.busy] at htx
    have hN : frameTicks s.cfg s.mem.cmd.size = callFrameTicks s := rfl
    omega
  · exact h.waiting hp
  · exact (hnot (inv_firstEdge h.inv hp)).elim
  · exact (hnot (inv_pollRx h.inv hp).1).elim

/-- Settles O48: the call returns, or is in flight behind its bound. -/
theorem interruptCallAlwaysReturns : Obligations.InterruptCallAlwaysReturns := by
  unfold Obligations.InterruptCallAlwaysReturns
  intro s hcall hd hrst
  generalize hM : max s.cfg.timeoutTicks (callFrameTicks s) = M at hrst ⊢
  obtain ⟨t, hstep, ht⟩ := sending_of_legalCall hcall (noReset_mono hrst (Nat.le_add_left 1 M))
  rcases ht.toInFlight.run (m := M) (by rwa [Nat.add_comm, ← Nat.add_assoc]) with
    ⟨k, u, -, hk, hrun, hu, hdone, hp⟩ | ⟨u, -, hu⟩
  · refine ⟨1 + k, u, by omega, by omega, runTicks_trans ((runTicks_one s).trans hstep) hrun, hdone, hp, ?_⟩
    exact inv_passive hu.inv (busy_eq_false_iff.2 (.inr hp))
  · have := hu.le_bound hd
    omega

/-- A call none of whose first `k` ticks has returned is in flight behind them. -/
theorem inFlight_of_notDone {s : State} (hcall : LegalCall s) {k : Nat} (hrst : NoReset (k + 1) s)
    (h : ∀ j, 1 ≤ j → j < k + 2 → ∃ u, runTicks j s = .next u ∧ u.done = false) :
    ∃ t, runTicks (k + 1) s = .next t ∧ InFlight s (k + 1) t := by
  induction k with
  | zero =>
    obtain ⟨t, hstep, ht⟩ := sending_of_legalCall hcall hrst
    exact ⟨t, (runTicks_one s).trans hstep, ht.toInFlight⟩
  | succ k ih =>
    obtain ⟨t, hrun, ht⟩ := ih (noReset_mono hrst (Nat.le_succ _)) fun j h1 h2 => h j h1 (by omega)
    obtain ⟨u, hstep, -, -, ⟨hdone, -⟩ | hon⟩ := ht.tick hrst
    · obtain ⟨v, hv, hnot⟩ := h (k + 2) (by omega) (by omega)
      cases (runTicks_step hrun hstep).symm.trans hv
      simp [hdone] at hnot
    · exact ⟨_, runTicks_step hrun hstep, hon⟩

/-- Settles O55: the return leaves nothing suppressed, so the bits held for the sources are theirs again. -/
theorem suppressionIsAlwaysReleased : Obligations.SuppressionIsAlwaysReleased := by
  unfold Obligations.SuppressionIsAlwaysReleased
  intro s t k hcall hrst hquiet hk hbefore hrun hdone
  obtain ⟨k, rfl⟩ := Nat.exists_eq_add_of_le' hk
  cases k with
  | zero =>
    obtain ⟨u, hstep, hu⟩ := sending_of_legalCall hcall hrst
    cases ((runTicks_one s).trans hstep).symm.trans hrun
    rw [hu.done] at hdone
    cases hdone
  | succ k =>
    obtain ⟨u, hrun', hu⟩ := inFlight_of_notDone hcall (noReset_mono hrst (Nat.le_succ _)) hbefore
    obtain ⟨v, hstep, -, hv, hends⟩ := hu.tick hrst
    cases (runTicks_step hrun' hstep).symm.trans hrun
    have hp : v.phase = .idle := by
      rcases hends with ⟨-, hp⟩ | hon
      · exact hp
      · rw [hon.done] at hdone
        cases hdone
    obtain ⟨hi, hphase, -⟩ := hcall
    obtain ⟨hdrv, -, -, hgie, hsuppress, -⟩ :=
      inv_passive hv.inv (busy_eq_false_iff.2 (.inr (by simpa using hp)))
    obtain ⟨-, -, -, -, hfree, -⟩ := inv_passive hi (busy_eq_false_iff.2 (.inr hphase))
    have hheld := hv.sources hquiet
    simp only [heldSources, hsuppress, hfree, Bool.false_eq_true, if_false, Prod.mk.injEq] at hheld
    exact ⟨hheld.1, hheld.2, hsuppress, hgie, hdrv⟩

end Sys2Proof.Machine

/-! ### The bits of a reply (R45, R63, R125) -/

namespace Sys2Proof

/-- Bit `m` of a reply in the order it is sent: byte 0 first, bit 7 first. -/
def bitAt (bytes : List Byte) (m : Nat) : Bool := (bytes.getD (m / 8) 0).getLsbD (7 - m % 8)

/-- Tick `o` of cell `m` of a reply. -/
theorem replyCells_drive (c : Config) {bytes : List Byte} {m o : Nat} (hm : m < 8 * bytes.length)
    (ho : o < 4 * c.ticksPerUnit) :
    (replyCells c bytes)[4 * c.ticksPerUnit * m + o]? = some (symbolDrive c (bitSymbol (bitAt bytes m)) o) := by
  have hpos : 0 < 4 * c.ticksPerUnit := Nat.zero_lt_of_lt ho
  rw [replyCells, getElem?_flatMap_of_uniform hpos (fun _ => dataCell_length), Nat.mul_add_div hpos,
    Nat.div_eq_of_lt ho, Nat.add_zero, Nat.mul_add_mod, Nat.mod_eq_of_lt ho, dataCells_getElem? hm, Option.bind_some,
    symbolWave_getElem? c _ (by rwa [symbolWave_bitSymbol_length])]
  rfl

/-- A symbol does not fall inside. -/
theorem symbolDrive_eq_low_of_succ {c : Config} {sym : Symbol} {o : Nat} (h : symbolDrive c sym (o + 1) = .low) :
    symbolDrive c sym o = .low := by
  have hlt : o + 1 < symbolLowTicks c sym := by
    by_contra hn
    simp [symbolDrive, hn] at h
  simp [symbolDrive, Nat.lt_of_succ_lt hlt]

theorem symbolDrive_zero {c : Config} (hS : 1 ≤ c.ticksPerUnit) (sym : Symbol) : symbolDrive c sym 0 = .low := by
  cases sym <;> simp [symbolDrive, symbolLowTicks] <;> omega

/-- The Low part of a cell is one time-unit or three. -/
theorem symbolLowTicks_bitSymbol (c : Config) (bit : Bool) :
    symbolLowTicks c (bitSymbol bit) = if bit then c.ticksPerUnit else 3 * c.ticksPerUnit := by
  cases bit <;> simp [bitSymbol, symbolLowTicks]

/-- The last time-unit of a cell is released. -/
theorem symbolDrive_bitSymbol_last {c : Config} {bit : Bool} {o : Nat} (ho : 3 * c.ticksPerUnit ≤ o) :
    symbolDrive c (bitSymbol bit) o = .released := by
  have hn : ¬ o < symbolLowTicks c (bitSymbol bit) := by
    rw [symbolLowTicks_bitSymbol]
    split <;> omega
  simp [symbolDrive, hn]

end Sys2Proof

namespace Sys2Proof.Machine

/-- A sample between one time-unit and three behind the edge reads the bit (R125). -/
theorem sampledBit_symbolDrive {c : Config} (h : sampleDelayLegal c = true) (bit : Bool) :
    sampledBit (resolve .released (symbolDrive c (bitSymbol bit) c.sampleDelayTicks)) = bit := by
  simp only [sampleDelayLegal, Bool.and_eq_true, decide_eq_true_eq] at h
  obtain ⟨hlow, hhigh⟩ := h
  cases bit with
  | true =>
    have hn : ¬ c.sampleDelayTicks < symbolLowTicks c (bitSymbol true) := by
      rw [symbolLowTicks_bitSymbol, if_pos rfl]
      omega
    simp [symbolDrive, hn, sampledBit, resolve]
  | false =>
    have hlt : c.sampleDelayTicks < symbolLowTicks c (bitSymbol false) := by
      rw [symbolLowTicks_bitSymbol, if_neg (by decide)]
      omega
    simp [symbolDrive, hlt, sampledBit, resolve]

theorem orBit_getLsbD (v : Byte) (bit : Bool) {position k : Nat} (hp : position < 8) (hk : k < 8) :
    (orBit v bit position).getLsbD k = (v.getLsbD k || (bit && decide (k = position))) := by
  cases bit with
  | false => simp [orBit]
  | true =>
    have hone : (1#8 <<< position).getLsbD k = decide (k = position) := by
      interval_cases position <;> interval_cases k <;> rfl
    simp [orBit, hone]

/-- The Interrupt variant has received the first `m` bits of a reply: its counters stand there, and the scratch holds
those bits and zeros (R17, R18, R125). -/
structure Received (bytes : List Byte) (m : Nat) (t : State) : Prop where
  byteCounter : t.byteCounter = m / 8
  bitCounter : t.bitCounter = 8 - m % 8
  scratch : ∀ i k, k < 8 → (t.mem.scratch.byteAt i).getLsbD k
    = (decide (8 * i + (7 - k) < m) && (bytes.getD i 0).getLsbD k)

theorem Received.congr {bytes : List Byte} {m : Nat} {t u : State} (h : Received bytes m t)
    (hbytes : u.byteCounter = t.byteCounter) (hbits : u.bitCounter = t.bitCounter)
    (hscratch : u.mem.scratch = t.mem.scratch) : Received bytes m u :=
  ⟨hbytes.trans h.byteCounter, hbits.trans h.bitCounter, hscratch ▸ h.scratch⟩

/-- With no bit received the counters are at their start and the scratch is clear. -/
theorem received_zero {t : State} (bytes : List Byte) (hbytes : t.byteCounter = 0) (hbits : t.bitCounter = 8)
    (hscratch : ∀ i, t.mem.scratch.byteAt i = 0) : Received bytes 0 t :=
  ⟨hbytes, hbits, fun i k _ => by simp [hscratch]⟩

/-- A whole number of bytes received is those bytes in the scratch. -/
theorem Received.byteAt {bytes : List Byte} {m : Nat} {t : State} (h : Received bytes m t) {i : Nat}
    (hi : 8 * (i + 1) ≤ m) : t.mem.scratch.byteAt i = bytes.getD i 0 := by
  refine BitVec.eq_of_getLsbD_eq fun k hk => ?_
  have hlt : 8 * i + (7 - k) < m := by omega
  rw [h.scratch i k hk, decide_eq_true hlt, Bool.true_and]

/-- The handler's body takes the next bit. -/
theorem received_handlerBody {bytes : List Byte} {m : Nat} {s t : State} (hwf : s.mem.wf = true)
    (h : Received bytes m s) (hbit : sampledBit (lineLevel s) = bitAt bytes m) (hb : handlerBody s = .next t) :
    Received bytes (m + 1) t ∧ t.samplePending = false := by
  obtain ⟨-, -, hscratchWf, -⟩ := memory_wf_iff.1 hwf
  obtain ⟨-, scratch, hwrite, rfl⟩ := handlerBody_next hb
  have hpos : s.bitCounter - 1 = 7 - m % 8 := by rw [h.bitCounter]; omega
  rw [hbit, hpos, h.byteCounter] at hwrite
  refine ⟨⟨?_, ?_, fun i k hk => ?_⟩, rfl⟩
  · dsimp only
    rw [hpos, h.byteCounter]
    split <;> omega
  · dsimp only [bitsPerByte]
    rw [hpos]
    split <;> omega
  · dsimp only
    rw [memWrite_byteAt hscratchWf hwrite i]
    by_cases hi : i = m / 8
    · subst hi
      rw [if_pos rfl, orBit_getLsbD _ _ (by omega) hk, h.scratch _ k hk]
      by_cases hkp : k = 7 - m % 8
      · have hnew : 8 * (m / 8) + (7 - k) < m + 1 := by omega
        have hold : ¬ 8 * (m / 8) + (7 - k) < m := by omega
        simp [hkp ▸ hnew, hkp ▸ hold, bitAt, hkp]
      · have hsame : 8 * (m / 8) + (7 - k) < m + 1 ↔ 8 * (m / 8) + (7 - k) < m := by omega
        simp [hkp, hsame]
    · have hsame : 8 * i + (7 - k) < m + 1 ↔ 8 * i + (7 - k) < m := by omega
      simp [hi, h.scratch i k hk, hsame]

/-! ### A call of the Interrupt variant in `WAIT` (R123 to R135, R139) -/

/-- The call is in `WAIT`. -/
structure Waiting (s : State) (n : Nat) (t : State) : Prop extends InFlight s n t where
  phase : t.phase = .wait

/-- A tick, or several, of `WAIT` in which the handler has not run. -/
structure CountersKept (t u : State) : Prop where
  mem : u.mem = t.mem
  bitCounter : u.bitCounter = t.bitCounter
  byteCounter : u.byteCounter = t.byteCounter

theorem CountersKept.refl (t : State) : CountersKept t t := ⟨rfl, rfl, rfl⟩

theorem CountersKept.trans {t u v : State} (h : CountersKept t u) (h' : CountersKept u v) : CountersKept t v :=
  ⟨h'.mem.trans h.mem, h'.bitCounter.trans h.bitCounter, h'.byteCounter.trans h.byteCounter⟩

theorem CountersKept.received {t u : State} (h : CountersKept t u) {bytes : List Byte} {m : Nat}
    (hr : Received bytes m t) : Received bytes m u :=
  hr.congr h.byteCounter h.bitCounter (congrArg Memory.scratch h.mem)

@[simp] theorem lineLevel_beginTick (s : State) : lineLevel (beginTick s) = lineLevel s := by
  rw [lineLevel, lineLevel, controllerDrive_congr (s := s) (t := beginTick s) (by simp) (by simp)]
  simp

theorem Waiting.drv {s t : State} {n : Nat} (h : Waiting s n t) : t.drv = .released := by
  obtain ⟨-, -, -, hdrv, -⟩ := inv_wait h.inv h.phase
  exact hdrv

theorem Waiting.lineLevel {s t : State} {n : Nat} {d : Drive} (h : Waiting s n t) (hd : DriveAt s n d) :
    Machine.lineLevel t = resolve .released d := by
  rw [Machine.lineLevel, h.drv, controllerDrive_of_driveAt h.env hd]

theorem Waiting.prevLine {s t : State} {n : Nat} {d : Drive} (h : Waiting s (n + 1) t) (hd : DriveAt s n d) :
    t.prevLine = resolve .released d := by
  rw [h.line n d rfl hd, h.drv]

/-- A tick of `WAIT` before the deadline that does not complete the reply goes on. -/
theorem Waiting.goOn {s t v : State} {n : Nat} (h : Waiting s n t) (hrst : NoReset (n + 1) s)
    (hlt : n < s.cfg.timeoutTicks) (he : edgeHandler (beginTick t) = .next v) (hnc : ¬ CompletesNow t) :
    step t = .next (endTick (countdownTick v)) ∧ Waiting s (n + 1) (endTick (countdownTick v)) := by
  obtain ⟨u, hstep, htick, -, hends⟩ := h.tick hrst
  have hphase : (beginTick t).phase = .wait := by simpa using h.phase
  obtain ⟨v', u', he', hv, hu', -, hcases⟩ := waitTick_of_inv (inv_beginTick h.inv) hphase
  cases he'.symm.trans he
  simp only [transactionTick, hphase] at htick
  cases hu'.symm.trans htick
  have hcompletes : CompletesNow (beginTick t) ↔ CompletesNow t := by simp [CompletesNow]
  rcases hcases with ⟨-, -, rfl⟩ | ⟨hend, -⟩
  · obtain ⟨scratch, bits, bytes, pending, due, rfl⟩ := hv.frame
    refine ⟨hstep, ⟨hends.resolve_left fun hidle => ?_, by simpa using h.phase⟩⟩
    simp [h.phase] at hidle
  · have hd := hend.resolve_left (hcompletes.not.2 hnc)
    simp only [beginTick_frame, h.cfg, h.now, h.t0] at hd
    omega

/-- A tick in which no edge can enter and no sample is due. -/
theorem Waiting.quiet {s t : State} {n : Nat} (h : Waiting s n t) (hrst : NoReset (n + 1) s)
    (hlt : n < s.cfg.timeoutTicks) (hdue : ¬ (t.samplePending = true ∧ t.now = t.sampleAt))
    (hedge : Machine.lineLevel t = .high ∨ t.prevLine = .low ∨ t.samplePending = true) :
    ∃ u, step t = .next u ∧ Waiting s (n + 1) u ∧ CountersKept t u ∧ u.samplePending = t.samplePending
      ∧ u.sampleAt = t.sampleAt := by
  have hshut : ¬ (fallingEdge (beginTick t) = true ∧ edgeGate (beginTick t) = true) := by
    rw [fallingEdge_iff, edgeGate_iff]
    simp only [beginTick_frame, lineLevel_beginTick]
    rintro ⟨⟨hhigh, hlow⟩, -, hpending, -⟩
    simp [hhigh, hlow, hpending] at hedge
  have he : edgeHandler (beginTick t) = .next (beginTick t) := by
    rw [edgeHandler_of_notDue (by simpa using hdue), if_neg hshut]
  obtain ⟨hstep, hon⟩ := h.goOn hrst hlt he fun hc => hdue ⟨hc.1, hc.2.1⟩
  obtain ⟨hmem, -⟩ := beginTick_of_busy h.busy
  exact ⟨_, hstep, hon, ⟨by simpa using hmem, by simp, by simp⟩, by simp, by simp⟩

/-- Ticks with nothing pending in each of which the line is released, or was Low before. -/
theorem Waiting.runQuiet {s t : State} {n k : Nat} (h : Waiting s n t) (hrst : NoReset (n + k) s)
    (hlt : n + k ≤ s.cfg.timeoutTicks) (hpending : t.samplePending = false)
    (hline : ∀ i, i < k → DriveAt s (n + i) .released ∨ ∃ m, n + i = m + 1 ∧ DriveAt s m .low) :
    ∃ u, runTicks k t = .next u ∧ Waiting s (n + k) u ∧ CountersKept t u ∧ u.samplePending = false := by
  induction k with
  | zero => exact ⟨t, rfl, h, .refl t, hpending⟩
  | succ k ih =>
    obtain ⟨u, hrun, hu, hk, hp⟩ := ih (noReset_mono hrst (Nat.le_succ _)) (by omega)
      fun i hi => hline i (Nat.lt_succ_of_lt hi)
    have hedge : Machine.lineLevel u = .high ∨ u.prevLine = .low ∨ u.samplePending = true := by
      rcases hline k (Nat.lt_succ_self k) with hd | ⟨m, hm, hd⟩
      · exact .inl (hu.lineLevel hd)
      · rw [hm] at hu
        exact .inr (.inl (hu.prevLine hd))
    obtain ⟨v, hstep, hv, hk', hp', -⟩ := hu.quiet hrst (by omega) (by simp [hp]) hedge
    exact ⟨v, runTicks_step hrun hstep, hv, hk.trans hk', hp'.trans hp⟩

/-- Ticks up to a pending sample, whatever the line does (R126). -/
theorem Waiting.runPending {s t : State} {n k : Nat} (h : Waiting s n t) (hrst : NoReset (n + k) s)
    (hlt : n + k ≤ s.cfg.timeoutTicks) (hpending : t.samplePending = true) (hat : s.now + n + k ≤ t.sampleAt) :
    ∃ u, runTicks k t = .next u ∧ Waiting s (n + k) u ∧ CountersKept t u ∧ u.samplePending = true
      ∧ u.sampleAt = t.sampleAt := by
  induction k with
  | zero => exact ⟨t, rfl, h, .refl t, hpending, rfl⟩
  | succ k ih =>
    obtain ⟨u, hrun, hu, hk, hp, hat'⟩ := ih (noReset_mono hrst (Nat.le_succ _)) (by omega) (by omega)
    have hnow := hu.now
    obtain ⟨v, hstep, hv, hk', hp', hat''⟩ := hu.quiet hrst (by omega) (by omega) (.inr (.inr hp))
    exact ⟨v, runTicks_step hrun hstep, hv, hk.trans hk', hp'.trans hp, hat''.trans hat'⟩

/-- A falling edge with nothing pending enters the handler (R124). -/
theorem Waiting.edge {s t : State} {n : Nat} (h : Waiting s n t) (hrst : NoReset (n + 1) s)
    (hlt : n < s.cfg.timeoutTicks) (hpending : t.samplePending = false) (hprev : t.prevLine = .high)
    (hd : DriveAt s n .low) :
    ∃ u, step t = .next u ∧ Waiting s (n + 1) u ∧ CountersKept t u ∧ u.samplePending = true
      ∧ u.sampleAt = s.now + n + s.cfg.sampleDelayTicks := by
  obtain ⟨-, -, -, -, hgie, harmed, -, -, -, -, hbytes, -⟩ := inv_wait h.inv h.phase
  have hlow : Machine.lineLevel t = .low := h.lineLevel hd
  have he : edgeHandler (beginTick t) = .next (enterHandler (beginTick t)) := by
    rw [edgeHandler_of_notDue (by simp [hpending]), if_pos]
    rw [fallingEdge_iff, edgeGate_iff]
    simpa using ⟨⟨hprev, hlow⟩, harmed, hpending, hbytes, hgie⟩
  obtain ⟨hstep, hon⟩ := h.goOn hrst hlt he fun hc => absurd hc.1 (by simp [hpending])
  obtain ⟨hmem, -⟩ := beginTick_of_busy h.busy
  exact ⟨_, hstep, hon, ⟨by simpa using hmem, by simp, by simp⟩, by simp, by simp [h.now, h.cfg]⟩

/-- Line 1 of R138 in the tick of the sample takes the bit on the line. -/
theorem Waiting.body {s t : State} {n m : Nat} {bytes : List Byte} {d : Drive} (h : Waiting s n t)
    (hpending : t.samplePending = true) (hat : t.sampleAt = s.now + n) (hr : Received bytes m t) (hd : DriveAt s n d)
    (hbit : sampledBit (resolve .released d) = bitAt bytes m) :
    ∃ v, edgeHandler (beginTick t) = .next v ∧ Received bytes (m + 1) v ∧ v.samplePending = false := by
  obtain ⟨hmem, -⟩ := beginTick_of_busy h.busy
  have hphase : (beginTick t).phase = .wait := by simpa using h.phase
  obtain ⟨v, he, -⟩ := edgeHandler_of_wait (inv_mem (inv_beginTick h.inv)) (inv_wait (inv_beginTick h.inv) hphase)
  refine ⟨v, he, ?_⟩
  rw [edgeHandler_of_due (by simpa using hpending) (by simpa [h.now] using hat.symm)] at he
  exact received_handlerBody (inv_mem (inv_beginTick h.inv)) (hr.congr (by simp) (by simp) (by simp))
    (by rw [lineLevel_beginTick, h.lineLevel hd, hbit]) he

/-- The sample of a bit that is not the last. -/
theorem Waiting.sample {s t : State} {n m : Nat} {bytes : List Byte} {d : Drive} (h : Waiting s n t)
    (hrst : NoReset (n + 1) s) (hlt : n < s.cfg.timeoutTicks) (hpending : t.samplePending = true)
    (hat : t.sampleAt = s.now + n) (hr : Received bytes m t) (hm : m + 1 < 8 * s.replySize) (hd : DriveAt s n d)
    (hbit : sampledBit (resolve .released d) = bitAt bytes m) :
    ∃ u, step t = .next u ∧ Waiting s (n + 1) u ∧ Received bytes (m + 1) u ∧ u.samplePending = false := by
  obtain ⟨v, he, hr', hp⟩ := h.body hpending hat hr hd hbit
  have hnc : ¬ CompletesNow t := by
    rintro ⟨-, -, hone, hall⟩
    rw [hr.bitCounter] at hone
    rw [hr.byteCounter, h.replyLen] at hall
    omega
  obtain ⟨hstep, hon⟩ := h.goOn hrst hlt he hnc
  exact ⟨_, hstep, hon, hr'.congr (by simp) (by simp) (by simp), by simpa using hp⟩

/-- The sample of the last bit returns the reply (R131, R134, R135). -/
theorem Waiting.lastSample {s t : State} {n : Nat} {bytes : List Byte} {d : Drive} (h : Waiting s n t)
    (hrst : NoReset (n + 1) s) (hpending : t.samplePending = true) (hat : t.sampleAt = s.now + n)
    (hn : 1 ≤ s.replySize) (hr : Received bytes (8 * s.replySize - 1) t) (hd : DriveAt s n d)
    (hbit : sampledBit (resolve .released d) = bitAt bytes (8 * s.replySize - 1)) :
    ∃ u, step t = .next u ∧ u.done = true ∧ u.success = true
      ∧ ∀ i, u.mem.reply.byteAt i = if i < s.replySize then bytes.getD i 0 else s.mem.reply.byteAt i := by
  obtain ⟨v, he, hr', -⟩ := h.body hpending hat hr hd hbit
  obtain ⟨u, hstep, htick, hcall, -⟩ := h.tick hrst
  have hphase : (beginTick t).phase = .wait := by simpa using h.phase
  obtain ⟨v', u', he', hv, hu', -, hcases⟩ := waitTick_of_inv (inv_beginTick h.inv) hphase
  cases he'.symm.trans he
  simp only [transactionTick, hphase] at htick
  cases hu'.symm.trans htick
  have hfull : v.byteCounter = s.replySize := by rw [hr'.byteCounter]; omega
  have hlen : v.replyLen = s.replySize := by
    obtain ⟨scratch, bits, count, pending, due, rfl⟩ := hv.frame
    simpa using h.replyLen
  have hc : CompletesNow (beginTick t) := by
    refine ⟨by simpa using hpending, by simpa [h.now] using hat.symm, ?_, ?_⟩
    · simp only [beginTick_frame, hr.bitCounter]
      omega
    · simp only [beginTick_frame, hr.byteCounter, h.replyLen]
      omega
  rcases hcases with ⟨hnc, -⟩ | ⟨-, reply, rfl, hread⟩
  · exact absurd hc hnc
  · have hcomplete : replyComplete (countdownTick v) = true := by simp [replyComplete, hfull, hlen]
    refine ⟨_, hstep, rfl, hcomplete, fun i => ?_⟩
    by_cases hi : i < s.replySize
    · rw [if_pos hi, ← hr'.byteAt (by omega)]
      exact (hread i).trans (if_pos (by rwa [hfull]))
    · rw [if_neg hi]
      exact hcall.behind i (Nat.not_lt.1 hi)

/-- The tick of the deadline with nothing pending is the error Timeout (R132, R182). -/
theorem Waiting.timeout {s t : State} {n : Nat} (h : Waiting s n t) (hrst : NoReset (n + 1) s)
    (hge : s.cfg.timeoutTicks ≤ n) (hpending : t.samplePending = false) (hbytes : t.byteCounter = 0)
    (hn : 1 ≤ s.replySize) (hzero : ∀ i, i < s.replySize → t.mem.reply.byteAt i = 0) :
    ∃ u, step t = .next u ∧ u.done = true ∧ u.success = false ∧ u.cause = some .timeout ∧ u.byteCounter = 0
      ∧ ∀ i, i < s.replySize → u.mem.reply.byteAt i = 0 := by
  obtain ⟨u, hstep, htick, -⟩ := h.tick hrst
  have hphase : (beginTick t).phase = .wait := by simpa using h.phase
  obtain ⟨v, u', he, hv, hu', -, hcases⟩ := waitTick_of_inv (inv_beginTick h.inv) hphase
  simp only [transactionTick, hphase] at htick
  cases hu'.symm.trans htick
  obtain ⟨hmem, -⟩ := beginTick_of_busy h.busy
  have hcount : v.byteCounter = 0 := by
    rcases edgeHandler_next he with ⟨hp, -⟩ | ⟨-, -, -, rfl⟩ | ⟨-, -, rfl⟩
    · simp [hpending] at hp
    · simpa using hbytes
    · simpa using hbytes
  have hlen : v.replyLen = s.replySize := by
    obtain ⟨scratch, bits, count, pending, due, rfl⟩ := hv.frame
    simpa using h.replyLen
  rcases hcases with ⟨-, hnd, -⟩ | ⟨-, reply, rfl, hread⟩
  · simp only [beginTick_frame, h.cfg, h.now, h.t0] at hnd
    omega
  · have hshort : replyComplete (countdownTick v) = false := by
      have hne : 0 ≠ s.replySize := by omega
      simp [replyComplete, hcount, hlen, hne]
    refine ⟨_, hstep, rfl, hshort, by simp [finished, hshort], by simpa [finished] using hcount, fun i hi => ?_⟩
    rw [show (endTick (finished reply (countdownTick v))).mem.reply = reply from rfl, hread i, hcount,
      if_neg (Nat.not_lt_zero i), hmem]
    exact hzero i hi

/-! #### From the call to the reply -/

/-- `t_a` of an Interrupt call: nothing received, nothing pending, the reply zero-filled. -/
structure Armed (s t : State) : Prop extends Waiting s (callFrameTicks s) t where
  pending : t.samplePending = false
  received : ∀ bytes, Received bytes 0 t
  byteCounter : t.byteCounter = 0
  zeroed : ∀ i, i < s.replySize → t.mem.reply.byteAt i = 0

/-- The run of an Interrupt call goes through a state armed at `t_a`. -/
theorem armed_of_run {s : State} (h : LegalCall s) (hd : s.cfg.decoder = .interrupt)
    (hrst : NoReset (callFrameTicks s) s) :
    ∃ t, Armed s t ∧ ∀ k, 1 ≤ k → runTicks (callFrameTicks s + k) s = runTicks k t := by
  have hpos := callFrameTicks_pos h
  obtain ⟨t, hrun, ht, hdrv⟩ := frame_of_run h hrst
  obtain ⟨hstep, hon⟩ := ht.enterWait hpos hdrv hd
  obtain ⟨-, -, -, hpending, -, -, -, hinterrupt, -⟩ := inv_send ht.inv ht.phase
  obtain ⟨-, -, -, hbits, hbytes, -⟩ := hinterrupt (by rw [ht.cfg, hd])
  refine ⟨enterWait t, ⟨⟨hon, rfl⟩, hpending, fun bytes => ?_, hbytes, ht.zeroed⟩, fun k hk => ?_⟩
  · exact received_zero bytes hbytes hbits (ht.cleared hd)
  · rw [runTicks_add, hrun, andThen_next, runTicks_congr hstep hk]

/-- Settles O49: nothing falls on the line from `t_a` on, so the deadline finds no bit received. -/
theorem silentControllerTimesOut : Obligations.SilentControllerTimesOut := by
  unfold Obligations.SilentControllerTimesOut
  intro s hcall hd hN hrst hsends
  obtain ⟨t, ht, hfrom⟩ := armed_of_run hcall hd (noReset_mono hrst (by omega))
  have hsilent (i : Nat) (hi : i < s.cfg.timeoutTicks + 1) : DriveAt s i .released :=
    driveAt_of_sends hsends (List.getElem?_replicate_of_lt hi)
  have hwait (k : Nat) (hk : callFrameTicks s + k ≤ s.cfg.timeoutTicks) :
      ∃ u, runTicks k t = .next u ∧ Waiting s (callFrameTicks s + k) u ∧ CountersKept t u ∧ u.samplePending = false :=
    ht.runQuiet (noReset_mono hrst (by omega)) hk ht.pending fun i hi => .inl (hsilent _ (by omega))
  have ⟨_, _, _, _, _, _, _, hn, _⟩ := hcall
  constructor
  · obtain ⟨k, hk⟩ := Nat.exists_eq_add_of_le hN
    obtain ⟨u, hrun, hu, hkept, hpending⟩ := hwait k hk.ge
    rw [← hk] at hu
    obtain ⟨v, hstep, hv⟩ := hu.timeout hrst (Nat.le_refl _) hpending (hkept.byteCounter.trans ht.byteCounter) hn
      (by rw [hkept.mem]; exact ht.zeroed)
    refine ⟨v, ?_, hv⟩
    rw [hk, Nat.add_assoc, hfrom _ (Nat.le_add_left 1 k)]
    exact runTicks_step hrun hstep
  · intro k hk1 hk
    by_cases hin : k ≤ callFrameTicks s
    · obtain ⟨j, rfl⟩ := Nat.exists_eq_add_of_le' hk1
      obtain ⟨u, hrun, hu⟩ := sending_of_run hcall (j := j) (noReset_mono hrst (by omega)) (by omega)
      exact ⟨u, hrun, hu.done⟩
    · obtain ⟨j, rfl⟩ := Nat.exists_eq_add_of_le (Nat.le_of_not_le hin)
      obtain ⟨u, hrun, hu, -⟩ := hwait j hk
      exact ⟨u, (hfrom j (by omega)).trans hrun, hu.done⟩

/-! #### The cells of a reply in `WAIT` -/

/-- At the head of cell `m`: its bits so far received, the line High before, nothing pending. -/
structure AtCell (s : State) (bytes : List Byte) (n m : Nat) (t : State) : Prop extends Waiting s n t where
  pending : t.samplePending = false
  prevHigh : t.prevLine = .high
  received : Received bytes m t

/-- The Controller drives the symbol of bit `m` from tick `n` on. -/
abbrev CellAt (s : State) (bytes : List Byte) (n m : Nat) : Prop :=
  ∀ o, o < 4 * s.cfg.ticksPerUnit → DriveAt s (n + o) (symbolDrive s.cfg (bitSymbol (bitAt bytes m)) o)

/-- Up to the sample of a cell: the edge, and the delay. -/
theorem AtCell.toSample {s t : State} {bytes : List Byte} {n m : Nat} (h : AtCell s bytes n m t)
    (hS : 1 ≤ s.cfg.ticksPerUnit) (hdelay : 1 ≤ s.cfg.sampleDelayTicks) (hcell : CellAt s bytes n m)
    (hrst : NoReset (n + s.cfg.sampleDelayTicks) s) (hlt : n + s.cfg.sampleDelayTicks ≤ s.cfg.timeoutTicks) :
    ∃ u, runTicks s.cfg.sampleDelayTicks t = .next u ∧ Waiting s (n + s.cfg.sampleDelayTicks) u
      ∧ u.samplePending = true ∧ u.sampleAt = s.now + (n + s.cfg.sampleDelayTicks) ∧ Received bytes m u := by
  obtain ⟨d, hd⟩ := Nat.exists_eq_add_of_le hdelay
  have hlow : DriveAt s n .low := by
    rw [← symbolDrive_zero hS (bitSymbol (bitAt bytes m))]
    exact hcell 0 (by omega)
  obtain ⟨u, hstep, hu, hk, hp, hat⟩ := h.edge (noReset_mono hrst (by omega)) (by omega) h.pending h.prevHigh hlow
  obtain ⟨v, hrun, hv, hk', hp', hat'⟩ := hu.runPending (k := d) (noReset_mono hrst (by omega)) (by omega) hp
    (by omega)
  have hn : n + 1 + d = n + s.cfg.sampleDelayTicks := by omega
  rw [hn] at hv
  refine ⟨v, ?_, hv, hp', by omega, (hk.trans hk').received h.received⟩
  rw [hd]
  exact runTicks_trans ((runTicks_one t).trans hstep) hrun

/-- A whole cell, not the last. -/
theorem AtCell.next {s t : State} {bytes : List Byte} {n m : Nat} (h : AtCell s bytes n m t)
    (hS : 1 ≤ s.cfg.ticksPerUnit) (hdelay : sampleDelayLegal s.cfg = true) (hcell : CellAt s bytes n m)
    (hm : m + 1 < 8 * s.replySize) (hrst : NoReset (n + 4 * s.cfg.ticksPerUnit) s)
    (hlt : n + 4 * s.cfg.ticksPerUnit ≤ s.cfg.timeoutTicks) :
    ∃ u, runTicks (4 * s.cfg.ticksPerUnit) t = .next u
      ∧ AtCell s bytes (n + 4 * s.cfg.ticksPerUnit) (m + 1) u := by
  have hrange := hdelay
  simp only [sampleDelayLegal, Bool.and_eq_true, decide_eq_true_eq] at hrange
  obtain ⟨hlow, hhigh⟩ := hrange
  obtain ⟨u, hrun, hu, hp, hat, hr⟩ :=
    h.toSample hS (by omega) hcell (noReset_mono hrst (by omega)) (by omega)
  obtain ⟨v, hstep, hv, hr', hp'⟩ := hu.sample (noReset_mono hrst (by omega)) (by omega) hp hat hr hm
    (hcell _ (by omega)) (sampledBit_symbolDrive hdelay _)
  obtain ⟨rest, hrest⟩ : ∃ rest, 4 * s.cfg.ticksPerUnit = s.cfg.sampleDelayTicks + 1 + rest :=
    Nat.exists_eq_add_of_le (by omega)
  have hquiet (i : Nat) (hi : i < rest) : DriveAt s (n + s.cfg.sampleDelayTicks + 1 + i) .released
      ∨ ∃ l, n + s.cfg.sampleDelayTicks + 1 + i = l + 1 ∧ DriveAt s l .low := by
    have hnow := hcell (s.cfg.sampleDelayTicks + i + 1) (by omega)
    have hbefore := hcell (s.cfg.sampleDelayTicks + i) (by omega)
    cases hdrive : symbolDrive s.cfg (bitSymbol (bitAt bytes m)) (s.cfg.sampleDelayTicks + i + 1) with
    | released =>
      rw [hdrive] at hnow
      have hindex : n + s.cfg.sampleDelayTicks + 1 + i = n + (s.cfg.sampleDelayTicks + i + 1) := by omega
      exact .inl (hindex ▸ hnow)
    | low =>
      rw [symbolDrive_eq_low_of_succ hdrive] at hbefore
      exact .inr ⟨_, by omega, hbefore⟩
  obtain ⟨w, hrun', hw, hk, hp''⟩ := hv.runQuiet (k := rest) (noReset_mono hrst (by omega)) (by omega) hp' hquiet
  have hn : n + s.cfg.sampleDelayTicks + 1 + rest = n + 4 * s.cfg.ticksPerUnit := by omega
  rw [hn] at hw
  refine ⟨w, ?_, ⟨hw, hp'', ?_, hk.received hr'⟩⟩
  · rw [hrest]
    exact runTicks_trans (runTicks_step hrun hstep) hrun'
  · have hlast := hcell (4 * s.cfg.ticksPerUnit - 1) (by omega)
    rw [symbolDrive_bitSymbol_last (by omega)] at hlast
    have hw' : Waiting s (n + (4 * s.cfg.ticksPerUnit - 1) + 1) w := by
      convert hw using 1
      omega
    exact hw'.prevLine hlast

/-- The cells up to cell `m`. -/
theorem AtCell.run {s t : State} {bytes : List Byte} {n m : Nat} (h : AtCell s bytes n 0 t)
    (hS : 1 ≤ s.cfg.ticksPerUnit) (hdelay : sampleDelayLegal s.cfg = true)
    (hcells : ∀ l, l < 8 * s.replySize → CellAt s bytes (n + 4 * s.cfg.ticksPerUnit * l) l)
    (hm : m < 8 * s.replySize) (hrst : NoReset (n + 4 * s.cfg.ticksPerUnit * m) s)
    (hlt : n + 4 * s.cfg.ticksPerUnit * m ≤ s.cfg.timeoutTicks) :
    ∃ u, runTicks (4 * s.cfg.ticksPerUnit * m) t = .next u
      ∧ AtCell s bytes (n + 4 * s.cfg.ticksPerUnit * m) m u := by
  induction m with
  | zero => exact ⟨t, rfl, h⟩
  | succ m ih =>
    rw [Nat.mul_succ, ← Nat.add_assoc] at hrst hlt ⊢
    obtain ⟨u, hrun, hu⟩ := ih (by omega) (noReset_mono hrst (by omega)) (by omega)
    obtain ⟨v, hrun', hv⟩ := hu.next hS hdelay (hcells m (by omega)) hm hrst hlt
    exact ⟨v, runTicks_trans hrun hrun', hv⟩

/-- The Controller's drives of a reply behind a silence, cell by cell. -/
theorem cellAt_of_sends {s : State} {bytes : List Byte} {gap : Nat} {tail : List Drive}
    (h : ControllerSends (silence gap ++ replyCells s.cfg bytes ++ tail) s) {m : Nat} (hm : m < 8 * bytes.length) :
    CellAt s bytes (gap + 4 * s.cfg.ticksPerUnit * m) m := by
  intro o ho
  have hcell := replyCells_drive s.cfg hm ho
  refine driveAt_of_sends h ?_
  have hlen : (silence gap).length = gap := List.length_replicate
  rw [List.append_assoc, List.getElem?_append_right (by omega), hlen, Nat.add_assoc, Nat.add_sub_cancel_left,
    List.getElem?_append_left (List.getElem?_eq_some_iff.1 hcell).1, hcell]

theorem driveAt_of_silence {s : State} {gap : Nat} {tail : List Drive} (h : ControllerSends (silence gap ++ tail) s)
    {i : Nat} (hi : i < gap) : DriveAt s i .released := by
  refine driveAt_of_sends h ?_
  rw [List.getElem?_append_left (by simpa [silence] using hi)]
  exact List.getElem?_replicate_of_lt hi

/-- Settles O50: the gap is quiet, every cell but the last is one bit, and the sample of the last completes the
reply. -/
theorem interruptCallReceivesTheReply : Obligations.InterruptCallReceivesTheReply := by
  unfold Obligations.InterruptCallReceivesTheReply
  intro s bytes gap hcall hd hdelay hlen hdeadline hrst hsends
  have hpos := callFrameTicks_pos hcall
  have hsends' : ControllerSends (silence (callFrameTicks s + gap) ++ replyCells s.cfg bytes ++ []) s := by
    rwa [List.append_nil]
  have hcells (l : Nat) (hl : l < 8 * s.replySize) :
      CellAt s bytes (callFrameTicks s + gap + 4 * s.cfg.ticksPerUnit * l) l :=
    cellAt_of_sends hsends' (by rwa [hlen])
  have ⟨_, _, _, _, _, _, _, hn, _, _, hconfig, _⟩ := hcall
  have hS := (configSendable_iff.1 hconfig).1
  have hrange := hdelay
  simp only [sampleDelayLegal, Bool.and_eq_true, decide_eq_true_eq] at hrange
  have hticks : 32 * s.cfg.ticksPerUnit * s.replySize
      = 4 * s.cfg.ticksPerUnit * (8 * s.replySize - 1) + 4 * s.cfg.ticksPerUnit := by
    rw [← Nat.mul_succ, show (8 * s.replySize - 1).succ = 8 * s.replySize by omega]
    ring
  rw [hticks] at hrst
  generalize hL : 4 * s.cfg.ticksPerUnit * (8 * s.replySize - 1) = last at *
  obtain ⟨t, ht, hfrom⟩ := armed_of_run hcall hd (noReset_mono hrst (by omega))
  obtain ⟨u, hgap, hu, hkept, hpending⟩ := ht.runQuiet (k := gap) (noReset_mono hrst (by omega)) (by omega) ht.pending
    fun i hi => .inl (driveAt_of_silence hsends (by omega))
  have hprev : u.prevLine = .high := by
    obtain ⟨j, hj⟩ := Nat.exists_eq_add_of_le' (show 1 ≤ callFrameTicks s + gap by omega)
    have hu' : Waiting s (j + 1) u := hj ▸ hu
    exact hu'.prevLine (driveAt_of_silence hsends (by omega))
  have hfirst : AtCell s bytes (callFrameTicks s + gap) 0 u := ⟨hu, hpending, hprev, hkept.received (ht.received bytes)⟩
  obtain ⟨v, hrun, hv⟩ := hfirst.run hS hdelay hcells (m := 8 * s.replySize - 1) (by omega)
    (noReset_mono hrst (by omega)) (by omega)
  have hcell := hcells (8 * s.replySize - 1) (by omega)
  rw [hL] at hrun hv hcell
  obtain ⟨w, hrun', hw, hp, hat, hr⟩ := hv.toSample hS (by omega) hcell (noReset_mono hrst (by omega)) hdeadline
  obtain ⟨x, hstep, hdone, hsuccess, hread⟩ := hw.lastSample (noReset_mono hrst (by omega)) hp hat hn hr
    (hcell _ (by omega)) (sampledBit_symbolDrive hdelay _)
  refine ⟨x, ?_, hdone, hsuccess, hread⟩
  have hall := runTicks_step (runTicks_trans (runTicks_trans hgap hrun) hrun') hstep
  rw [← hall, ← hfrom _ (by omega)]
  congr 1
  omega

end Sys2Proof.Machine

/-! ### A call of the Polling variant (R101 to R111) -/

namespace Sys2Proof.Machine

/-- The call waits for the first edge, its reply zero-filled. -/
structure Listening (s : State) (n : Nat) (t : State) : Prop extends InFlight s n t where
  phase : t.phase = .firstEdge
  zeroed : ∀ i, i < s.replySize → t.mem.reply.byteAt i = 0

theorem Listening.lineLevel {s t : State} {n : Nat} {d : Drive} (h : Listening s n t) (hd : DriveAt s n d) :
    Machine.lineLevel t = resolve .released d := by
  obtain ⟨-, -, hdrv, -⟩ := inv_firstEdge h.inv h.phase
  rw [Machine.lineLevel, hdrv, controllerDrive_of_driveAt h.env hd]

/-- A released line leaves the call waiting. -/
theorem Listening.silent {s t : State} {n : Nat} (h : Listening s n t) (hrst : NoReset (n + 1) s)
    (hd : DriveAt s n .released) : ∃ u, step t = .next u ∧ Listening s (n + 1) u := by
  obtain ⟨u, hstep, htick, -, hends⟩ := h.tick hrst
  have hphase : (beginTick t).phase = .firstEdge := by simpa using h.phase
  have hline : Machine.lineLevel (beginTick t) = .high := (lineLevel_beginTick t).trans (h.lineLevel hd)
  simp only [transactionTick, hphase] at htick
  cases (firstEdgeTick_of_high hline).symm.trans htick
  obtain ⟨hmem, -⟩ := beginTick_of_busy h.busy
  refine ⟨_, hstep, hends.resolve_left fun hidle => ?_, by simpa using h.phase, by simpa [hmem] using h.zeroed⟩
  simp at hidle

theorem Listening.runSilent {s t : State} {n k : Nat} (h : Listening s n t) (hrst : NoReset (n + k) s)
    (hline : ∀ i, i < k → DriveAt s (n + i) .released) : ∃ u, runTicks k t = .next u ∧ Listening s (n + k) u := by
  induction k with
  | zero => exact ⟨t, rfl, h⟩
  | succ k ih =>
    obtain ⟨u, hrun, hu⟩ := ih (noReset_mono hrst (Nat.le_succ _)) fun i hi => hline i (Nat.lt_succ_of_lt hi)
    obtain ⟨v, hstep, hv⟩ := hu.silent hrst (hline k (Nat.lt_succ_self k))
    exact ⟨v, runTicks_step hrun hstep, hv⟩

/-- The run of a Polling call goes through a state that listens at `t_a`. -/
theorem listening_of_run {s : State} (h : LegalCall s) (hd : s.cfg.decoder = .polling)
    (hrst : NoReset (callFrameTicks s) s) :
    ∃ t, Listening s (callFrameTicks s) t
      ∧ ∀ k, 1 ≤ k → runTicks (callFrameTicks s + k) s = runTicks k t := by
  obtain ⟨t, hrun, ht, hdrv⟩ := frame_of_run h hrst
  obtain ⟨hstep, hon⟩ := ht.enterFirstEdge (callFrameTicks_pos h) hdrv hd
  refine ⟨enterFirstEdge t, ⟨hon, rfl, ht.zeroed⟩, fun k hk => ?_⟩
  rw [runTicks_add, hrun, andThen_next, runTicks_congr hstep hk]

/-- Settles O52: silence from `t_a` on leaves the call in `FIRSTEDGE`. -/
theorem pollingCallHangsOnSilence : Obligations.PollingCallHangsOnSilence := by
  unfold Obligations.PollingCallHangsOnSilence
  intro s k hcall hd hrst hsends
  obtain ⟨t, ht, hfrom⟩ := listening_of_run hcall hd (noReset_mono hrst (by omega))
  obtain ⟨u, hrun, hu⟩ := ht.runSilent (k := k + 1) hrst fun i hi =>
    driveAt_of_sends hsends (List.getElem?_replicate_of_lt (by omega))
  obtain ⟨-, -, -, hgie, -⟩ := inv_firstEdge hu.inv hu.phase
  exact ⟨u, (hfrom (k + 1) (Nat.le_add_left 1 k)).trans hrun, hu.phase, hu.done, hgie, hu.zeroed⟩

/-! #### The bits of a reply in `POLLRX` -/

/-- The Polling variant has decoded the first `m` bits of a reply: the whole bytes are stored, the others in `cur`. -/
structure Decoded (bytes : List Byte) (m : Nat) (t : State) : Prop where
  stored : ∀ i, i < m / 8 → t.mem.reply.byteAt i = bytes.getD i 0
  current : ∀ k, k < m % 8 → t.cur.getLsbD k = (bytes.getD (m / 8) 0).getLsbD (k + 8 - m % 8)

theorem decoded_zero (bytes : List Byte) (t : State) : Decoded bytes 0 t :=
  ⟨fun i hi => absurd hi (Nat.not_lt_zero i), fun k hk => absurd hk (Nat.not_lt_zero k)⟩

theorem Decoded.congr {bytes : List Byte} {m : Nat} {t u : State} (h : Decoded bytes m t)
    (hreply : u.mem.reply = t.mem.reply) (hcur : u.cur = t.cur) : Decoded bytes m u :=
  ⟨hreply ▸ h.stored, hcur ▸ h.current⟩

theorem shiftIn_getLsbD_zero (cur : Byte) (bit : Bool) : (shiftIn cur bit).getLsbD 0 = bit := by
  cases bit <;> simp [shiftIn]

theorem shiftIn_getLsbD_succ (cur : Byte) (bit : Bool) {k : Nat} (hk : k + 1 < 8) :
    (shiftIn cur bit).getLsbD (k + 1) = cur.getLsbD k := by
  have hlow : (if bit then 1#8 else 0#8).getLsbD (k + 1) = false := by
    cases bit
    · simp
    · have hk7 : k < 7 := by omega
      interval_cases k <;> rfl
  rw [shiftIn, BitVec.getLsbD_or, hlow, Bool.or_false, BitVec.getLsbD_shiftLeft]
  simp [hk]

/-- The bits in `cur` behind a shift: those of before and the new one. -/
theorem Decoded.shiftIn {bytes : List Byte} {m : Nat} {t : State} (h : Decoded bytes m t) {k : Nat}
    (hk : k ≤ m % 8) :
    (Machine.shiftIn t.cur (bitAt bytes m)).getLsbD k = (bytes.getD (m / 8) 0).getLsbD (k + 7 - m % 8) := by
  cases k with
  | zero => rw [shiftIn_getLsbD_zero, bitAt, Nat.zero_add]
  | succ k =>
    rw [shiftIn_getLsbD_succ _ _ (by omega), h.current k (by omega), Nat.add_right_comm]

/-- A bit boundary whose High run reads as bit `m` decodes that bit. -/
theorem decoded_boundary {bytes : List Byte} {m : Nat} {t : State} {reply : Buffer} (h : Decoded bytes m t)
    (hm : t.nbits = m) (hbit : thresholdBit t.cfg t.highCount = bitAt bytes m)
    (hread : ∀ i, reply.byteAt i = if (m + 1) % 8 = 0 ∧ i = (m + 1) / 8 - 1 then (closeCell t).cur
      else t.mem.reply.byteAt i) : Decoded bytes (m + 1) (boundary reply t) := by
  have hcur : (closeCell t).cur = shiftIn t.cur (bitAt bytes m) := by rw [closeCell, hbit]
  constructor
  case stored =>
    intro i hi
    simp only [boundary_frame]
    rw [hread i]
    split
    · next hlast =>
      obtain ⟨hmod, rfl⟩ := hlast
      rw [hcur]
      refine BitVec.eq_of_getLsbD_eq fun k hk => ?_
      rw [h.shiftIn (by omega), show (m + 1) / 8 - 1 = m / 8 by omega, show k + 7 - m % 8 = k by omega]
    · next hother => exact h.stored i (by omega)
  case current =>
    intro k hk
    simp only [boundary_frame]
    rw [hcur, h.shiftIn (by omega), show (m + 1) / 8 = m / 8 by omega,
      show k + 8 - (m + 1) % 8 = k + 7 - m % 8 by omega]

/-- In cell `m`, with `o` ticks of it sampled: the High ones are counted, and when the threshold is legal the bits of
the cells before are decoded. -/
structure Sampling (s : State) (bytes : List Byte) (n m o : Nat) (t : State) : Prop extends InFlight s n t where
  phase : t.phase = .pollRx
  nbits : t.nbits = m
  highCount : t.highCount = o - symbolLowTicks s.cfg (bitSymbol (bitAt bytes m))
  pollPrev : t.pollPrev = resolve .released (symbolDrive s.cfg (bitSymbol (bitAt bytes m)) (o - 1))
  decoded : thresholdLegal s.cfg = true → Decoded bytes m t

theorem Sampling.lineLevel {s t : State} {bytes : List Byte} {n m o : Nat} {d : Drive} (h : Sampling s bytes n m o t)
    (hd : DriveAt s n d) : Machine.lineLevel t = resolve .released d := by
  obtain ⟨⟨-, -, hdrv, -⟩, -⟩ := inv_pollRx h.inv h.phase
  rw [Machine.lineLevel, hdrv, controllerDrive_of_driveAt h.env hd]

theorem Sampling.transactionTick {s t : State} {bytes : List Byte} {n m o : Nat} (h : Sampling s bytes n m o t) :
    Machine.transactionTick (beginTick t) = pollTick (beginTick t) :=
  transactionTick_of_pollRx (by simpa using h.phase)

/-- The first Low tick is the first tick of cell 0 (R102). -/
theorem Listening.firstEdge {s t : State} {bytes : List Byte} {n : Nat} (h : Listening s n t)
    (hS : 1 ≤ s.cfg.ticksPerUnit) (hrst : NoReset (n + 1) s) (hcell : CellAt s bytes n 0) :
    ∃ u, step t = .next u ∧ Sampling s bytes (n + 1) 0 1 u := by
  obtain ⟨u, hstep, htick, -, hends⟩ := h.tick hrst
  have hlow : DriveAt s n .low := by
    rw [← symbolDrive_zero hS (bitSymbol (bitAt bytes 0))]
    exact hcell 0 (by omega)
  have hphase : (beginTick t).phase = .firstEdge := by simpa using h.phase
  have hline : Machine.lineLevel (beginTick t) = .low := (lineLevel_beginTick t).trans (h.lineLevel hlow)
  simp only [Machine.transactionTick, hphase] at htick
  cases (firstEdgeTick_of_low hline).symm.trans htick
  refine ⟨_, hstep, hends.resolve_left (by simp), rfl, rfl, ?_, ?_, fun _ => decoded_zero bytes _⟩
  · have : 1 ≤ symbolLowTicks s.cfg (bitSymbol (bitAt bytes 0)) := by
      rw [symbolLowTicks_bitSymbol]
      split <;> omega
    show 0 = _
    omega
  · rw [Nat.sub_self, symbolDrive_zero hS]
    rfl

/-- A tick inside a cell: a Low one changes nothing, a High one is counted (R103). -/
theorem Sampling.next {s t : State} {bytes : List Byte} {n m o : Nat} (h : Sampling s bytes n m o t) (ho : 1 ≤ o)
    (hrst : NoReset (n + 1) s) (hd : DriveAt s n (symbolDrive s.cfg (bitSymbol (bitAt bytes m)) o)) :
    ∃ u, step t = .next u ∧ Sampling s bytes (n + 1) m (o + 1) u := by
  obtain ⟨u, hstep, htick, -, hends⟩ := h.tick hrst
  have hline := (lineLevel_beginTick t).trans (h.lineLevel hd)
  rw [h.transactionTick] at htick
  obtain ⟨hmem, -⟩ := beginTick_of_busy h.busy
  cases hdrive : symbolDrive s.cfg (bitSymbol (bitAt bytes m)) o with
  | low =>
    have hlt : o < symbolLowTicks s.cfg (bitSymbol (bitAt bytes m)) := by
      by_contra hn
      simp [symbolDrive, hn] at hdrive
    rw [hdrive] at hline
    have hprev : t.pollPrev = .low := by
      obtain ⟨p, rfl⟩ := Nat.exists_eq_add_of_le' ho
      rw [h.pollPrev, Nat.add_sub_cancel, symbolDrive_eq_low_of_succ hdrive]
      rfl
    cases (pollTick_of_low_low hline (by simpa using hprev)).symm.trans htick
    refine ⟨_, hstep, hends.resolve_left (by simp), by simpa using h.phase, by simpa using h.nbits, ?_, ?_,
      fun hth => ?_⟩
    · simp only [endTick_fields, beginTick_frame, h.highCount]
      omega
    · rw [Nat.add_sub_cancel, hdrive]
      exact (by simpa using hprev : (endTick (beginTick t)).pollPrev = .low)
    · exact (h.decoded hth).congr (by simp [hmem]) (by simp)
  | released =>
    have hge : symbolLowTicks s.cfg (bitSymbol (bitAt bytes m)) ≤ o := by
      by_contra hn
      simp [symbolDrive, Nat.not_le.1 hn] at hdrive
    rw [hdrive] at hline
    cases (pollTick_of_high hline).symm.trans htick
    refine ⟨_, hstep, hends.resolve_left (by simp), by simpa using h.phase, by simpa using h.nbits, ?_, ?_,
      fun hth => ?_⟩
    · simp only [endTick_fields, beginTick_frame, h.highCount]
      omega
    · rw [Nat.add_sub_cancel, hdrive]
      rfl
    · exact (h.decoded hth).congr (by simp [hmem]) (by simp)

/-- The rest of a cell. -/
theorem Sampling.run {s t : State} {bytes : List Byte} {n m o k : Nat} (h : Sampling s bytes (n + o) m o t) (ho : 1 ≤ o)
    (hk : o + k ≤ 4 * s.cfg.ticksPerUnit) (hrst : NoReset (n + o + k) s) (hcell : CellAt s bytes n m) :
    ∃ u, runTicks k t = .next u ∧ Sampling s bytes (n + o + k) m (o + k) u := by
  induction k with
  | zero => exact ⟨t, rfl, h⟩
  | succ k ih =>
    obtain ⟨u, hrun, hu⟩ := ih (by omega) (noReset_mono hrst (Nat.le_succ _))
    have hd := hcell (o + k) (by omega)
    rw [← Nat.add_assoc] at hd
    obtain ⟨v, hstep, hv⟩ := hu.next (by omega) hrst hd
    exact ⟨v, runTicks_step hrun hstep, hv⟩

/-- The High run of a whole cell reads as its bit when the threshold lies between one time-unit and three (R105). -/
theorem thresholdBit_cell {c : Config} (h : thresholdLegal c = true) (bit : Bool) :
    thresholdBit c (4 * c.ticksPerUnit - symbolLowTicks c (bitSymbol bit)) = bit := by
  simp only [thresholdLegal, Bool.and_eq_true, decide_eq_true_eq] at h
  obtain ⟨hlow, hhigh⟩ := h
  rw [symbolLowTicks_bitSymbol]
  cases bit
  · simp [thresholdBit]; omega
  · simp [thresholdBit]; omega

/-- A falling edge behind a whole cell is a bit boundary, which stays inside the reply. -/
theorem Sampling.edge {s t : State} {bytes : List Byte} {n m : Nat}
    (h : Sampling s bytes n m (4 * s.cfg.ticksPerUnit) t) (hS : 1 ≤ s.cfg.ticksPerUnit) (hrst : NoReset (n + 1) s)
    (hd : DriveAt s n .low) :
    ∃ reply, step t = .next (endTick (boundary reply (beginTick t)))
      ∧ OfCall s (n + 1) (endTick (boundary reply (beginTick t)))
      ∧ ((boundary reply (beginTick t)).phase ≠ .idle →
          InFlight s (n + 1) (endTick (boundary reply (beginTick t))))
      ∧ (thresholdLegal s.cfg = true → Decoded bytes (m + 1) (boundary reply (beginTick t))) := by
  obtain ⟨u, hstep, htick, hcall, hends⟩ := h.tick hrst
  have hi := inv_beginTick h.inv
  have hphase : (beginTick t).phase = .pollRx := by simpa using h.phase
  obtain ⟨⟨⟨-, -, -, -, -, hroom, -⟩, -⟩, hn, -⟩ := inv_pollRx hi hphase
  have hline := (lineLevel_beginTick t).trans (h.lineLevel hd)
  have hprev : t.pollPrev = .high := by
    rw [h.pollPrev, symbolDrive_bitSymbol_last (by omega)]
    rfl
  obtain ⟨reply, hb, -, -, hread⟩ := bitBoundary_eq_boundary (inv_mem hi) hn hroom
  rw [h.transactionTick, pollTick_of_low_high hline (by simpa using hprev), hb] at htick
  cases htick
  obtain ⟨hmem, -⟩ := beginTick_of_busy h.busy
  have hm : (beginTick t).nbits = m := by simpa using h.nbits
  rw [hm] at hread
  refine ⟨reply, hstep, hcall, fun hp => hends.resolve_left fun hidle => hp hidle.2, fun hth => ?_⟩
  refine decoded_boundary ((h.decoded hth).congr (by rw [hmem]) (by simp)) hm ?_ hread
  simp only [beginTick_frame, h.cfg, h.highCount]
  exact thresholdBit_cell hth _

/-- The first tick of the next cell. -/
theorem Sampling.nextCell {s t : State} {bytes : List Byte} {n m : Nat}
    (h : Sampling s bytes n m (4 * s.cfg.ticksPerUnit) t) (hS : 1 ≤ s.cfg.ticksPerUnit) (hrst : NoReset (n + 1) s)
    (hm : m + 1 < 8 * s.replySize) (hcell : CellAt s bytes n (m + 1)) :
    ∃ u, step t = .next u ∧ Sampling s bytes (n + 1) (m + 1) 1 u := by
  have hlow : DriveAt s n .low := by
    rw [← symbolDrive_zero hS (bitSymbol (bitAt bytes (m + 1)))]
    exact hcell 0 (by omega)
  obtain ⟨reply, hstep, -, hon, hdecoded⟩ := h.edge hS hrst hlow
  have hinner : (beginTick t).nbits + 1 ≠ 8 * (beginTick t).replyLen := by
    simp only [beginTick_frame, h.nbits, h.replyLen]
    omega
  have hphase : (boundary reply (beginTick t)).phase = .pollRx :=
    (boundary_of_inner hinner reply).1.trans (by simpa using h.phase)
  refine ⟨_, hstep, hon (by simp [hphase]), by simpa using hphase, by simp [h.nbits], ?_, ?_, fun hth => ?_⟩
  · have : 1 ≤ symbolLowTicks s.cfg (bitSymbol (bitAt bytes (m + 1))) := by
      rw [symbolLowTicks_bitSymbol]
      split <;> omega
    simp only [endTick_fields, boundary_frame]
    omega
  · rw [Nat.sub_self, symbolDrive_zero hS]
    exact (by simp : (endTick (boundary reply (beginTick t))).pollPrev = .low)
  · exact (hdecoded hth).congr rfl rfl

/-- The cells up to the end of cell `m`. -/
theorem Sampling.runCells {s t : State} {bytes : List Byte} {n m : Nat} (h : Listening s n t)
    (hS : 1 ≤ s.cfg.ticksPerUnit)
    (hcells : ∀ l, l < 8 * s.replySize → CellAt s bytes (n + 4 * s.cfg.ticksPerUnit * l) l)
    (hm : m < 8 * s.replySize) (hrst : NoReset (n + 4 * s.cfg.ticksPerUnit * (m + 1)) s) :
    ∃ u, runTicks (4 * s.cfg.ticksPerUnit * (m + 1)) t = .next u
      ∧ Sampling s bytes (n + 4 * s.cfg.ticksPerUnit * (m + 1)) m (4 * s.cfg.ticksPerUnit) u := by
  obtain ⟨rest, hrest⟩ := Nat.exists_eq_add_of_le (show 1 ≤ 4 * s.cfg.ticksPerUnit by omega)
  have hrun {first : Nat} {l : Nat} {v : State} (hl : l < 8 * s.replySize) (hv : Sampling s bytes (first + 1) l 1 v)
      (hcell : CellAt s bytes first l) (hno : NoReset (first + 4 * s.cfg.ticksPerUnit) s) :
      ∃ u, runTicks rest v = .next u
        ∧ Sampling s bytes (first + 4 * s.cfg.ticksPerUnit) l (4 * s.cfg.ticksPerUnit) u := by
    have hend : first + 1 + rest = first + 4 * s.cfg.ticksPerUnit := by omega
    obtain ⟨u, hrun, hu⟩ := hv.run (Nat.le_refl 1) (k := rest) (by omega) (by rwa [hend]) hcell
    rw [hend, ← hrest] at hu
    exact ⟨u, hrun, hu⟩
  induction m with
  | zero =>
    rw [Nat.zero_add, Nat.mul_one] at hrst ⊢
    have hcell : CellAt s bytes n 0 := hcells 0 hm
    obtain ⟨u, hstep, hu⟩ := h.firstEdge hS (noReset_mono hrst (by omega)) hcell
    obtain ⟨v, hrun', hv⟩ := hrun hm hu hcell hrst
    refine ⟨v, ?_, hv⟩
    rw [hrest]
    exact runTicks_trans ((runTicks_one t).trans hstep) hrun'
  | succ m ih =>
    rw [Nat.mul_succ, ← Nat.add_assoc] at hrst ⊢
    obtain ⟨u, hrun', hu⟩ := ih (by omega) (noReset_mono hrst (by omega))
    obtain ⟨v, hstep, hv⟩ := hu.nextCell hS (noReset_mono hrst (by omega)) hm (hcells (m + 1) hm)
    obtain ⟨w, hrun'', hw⟩ := hrun hm hv (hcells (m + 1) hm) hrst
    refine ⟨w, runTicks_trans hrun' ?_, hw⟩
    rw [hrest]
    exact runTicks_trans ((runTicks_one u).trans hstep) hrun''

/-- Silence behind a whole cell leaves its bit undecided. -/
structure Undecided (s : State) (n m : Nat) (t : State) : Prop extends InFlight s n t where
  phase : t.phase = .pollRx
  nbits : t.nbits = m

theorem Undecided.runSilent {s t : State} {n m k : Nat} (h : Undecided s n m t) (hrst : NoReset (n + k) s)
    (hline : ∀ i, i < k → DriveAt s (n + i) .released) : ∃ u, runTicks k t = .next u ∧ Undecided s (n + k) m u := by
  induction k with
  | zero => exact ⟨t, rfl, h⟩
  | succ k ih =>
    obtain ⟨u, hrun, hu⟩ := ih (noReset_mono hrst (Nat.le_succ _)) fun i hi => hline i (Nat.lt_succ_of_lt hi)
    obtain ⟨v, hstep, htick, -, hends⟩ := hu.tick hrst
    obtain ⟨⟨-, -, hdrv, -⟩, -⟩ := inv_pollRx hu.inv hu.phase
    have hhigh : Machine.lineLevel (beginTick u) = .high := by
      rw [lineLevel_beginTick, Machine.lineLevel, hdrv,
        controllerDrive_of_driveAt hu.env (hline k (Nat.lt_succ_self k))]
      rfl
    rw [transactionTick_of_pollRx (by simpa using hu.phase), pollTick_of_high hhigh] at htick
    cases htick
    exact ⟨_, runTicks_step hrun hstep, hends.resolve_left (by simp), by simpa using hu.phase, by simpa using hu.nbits⟩

/-- The run of a Polling call up to the end of the last cell. -/
theorem sampling_of_run {s : State} {bytes : List Byte} {gap : Nat} {tail : List Drive} (hcall : LegalCall s)
    (hd : s.cfg.decoder = .polling) (hlen : bytes.length = s.replySize)
    (hrst : NoReset (callFrameTicks s + gap + 32 * s.cfg.ticksPerUnit * s.replySize) s)
    (hsends : ControllerSends (silence (callFrameTicks s + gap) ++ replyCells s.cfg bytes ++ tail) s) :
    ∃ t, runTicks (callFrameTicks s + gap + 32 * s.cfg.ticksPerUnit * s.replySize) s = .next t
      ∧ Sampling s bytes (callFrameTicks s + gap + 32 * s.cfg.ticksPerUnit * s.replySize) (8 * s.replySize - 1)
        (4 * s.cfg.ticksPerUnit) t := by
  have ⟨_, _, _, _, _, _, _, hn, _, _, hconfig, _⟩ := hcall
  have hS := (configSendable_iff.1 hconfig).1
  have hticks : 4 * s.cfg.ticksPerUnit * (8 * s.replySize - 1 + 1) = 32 * s.cfg.ticksPerUnit * s.replySize := by
    rw [show 8 * s.replySize - 1 + 1 = 8 * s.replySize by omega]
    ring
  have hpos : 1 ≤ 32 * s.cfg.ticksPerUnit * s.replySize := Nat.mul_pos (by omega) hn
  obtain ⟨t, ht, hfrom⟩ := listening_of_run hcall hd (noReset_mono hrst (by omega))
  obtain ⟨u, hgap, hu⟩ := ht.runSilent (k := gap) (noReset_mono hrst (by omega)) fun i hi =>
    driveAt_of_silence (by rwa [List.append_assoc] at hsends) (by omega)
  obtain ⟨v, hrun, hv⟩ := Sampling.runCells hu hS (m := 8 * s.replySize - 1)
    (fun l hl => cellAt_of_sends hsends (by rwa [hlen])) (by omega) (by rwa [hticks])
  rw [hticks] at hrun hv
  refine ⟨v, ?_, hv⟩
  rw [Nat.add_assoc, hfrom _ (by omega)]
  exact runTicks_trans hgap hrun

/-- The drive of tick `i` behind the cells of a reply. -/
theorem driveAt_behind_cells {s : State} {bytes : List Byte} {gap : Nat} {tail : List Drive}
    (h : ControllerSends (silence gap ++ replyCells s.cfg bytes ++ tail) s) {i : Nat} {d : Drive}
    (hd : tail[i]? = some d) :
    DriveAt s (gap + 32 * s.cfg.ticksPerUnit * bytes.length + i) d := by
  have hlen : (silence gap ++ replyCells s.cfg bytes).length = gap + 32 * s.cfg.ticksPerUnit * bytes.length := by
    rw [List.length_append, replyCells_length, silence, List.length_replicate]
    ring
  refine driveAt_of_sends h ?_
  rw [List.getElem?_append_right (by omega), hlen, Nat.add_sub_cancel_left, hd]

/-- Settles O53: a silent line behind the last cell is High, which closes no cell. -/
theorem lastBitNeedsOneMoreEdge : Obligations.LastBitNeedsOneMoreEdge := by
  unfold Obligations.LastBitNeedsOneMoreEdge
  intro s bytes gap k hcall hd hlen hrst hsends
  obtain ⟨t, hrun, ht⟩ := sampling_of_run hcall hd hlen (noReset_mono hrst (Nat.le_add_right _ k)) hsends
  have hlast : Undecided s _ _ t := ⟨ht.toInFlight, ht.phase, ht.nbits⟩
  obtain ⟨u, hrun', hu⟩ := hlast.runSilent hrst fun i hi => by
    rw [← hlen]
    exact driveAt_behind_cells hsends (List.getElem?_replicate_of_lt hi)
  obtain ⟨⟨-, -, -, hgie, -⟩, -⟩ := inv_pollRx hu.inv hu.phase
  exact ⟨u, runTicks_trans hrun hrun', hu.phase, hu.nbits, hu.done, hgie⟩

/-- Settles O51: the edge behind the last cell decodes its bit, stores the last byte and returns. -/
theorem pollingCallReceivesTheReply : Obligations.PollingCallReceivesTheReply := by
  unfold Obligations.PollingCallReceivesTheReply
  intro s bytes gap hcall hd hth hlen hrst hsends
  have ⟨_, _, _, _, _, _, _, hn, _, _, hconfig, _⟩ := hcall
  obtain ⟨t, hrun, ht⟩ := sampling_of_run hcall hd hlen (noReset_mono hrst (Nat.le_succ _)) hsends
  have hlow : DriveAt s (callFrameTicks s + gap + 32 * s.cfg.ticksPerUnit * s.replySize) .low := by
    rw [← hlen]
    exact driveAt_behind_cells (i := 0) hsends rfl
  obtain ⟨reply, hstep, hof, -, hdecoded⟩ := ht.edge (configSendable_iff.1 hconfig).1 hrst hlow
  have hlast : (beginTick t).nbits + 1 = 8 * (beginTick t).replyLen := by
    simp only [beginTick_frame, ht.nbits, ht.replyLen]
    omega
  obtain ⟨-, -, hdone, hsuccess⟩ := boundary_of_last hlast reply
  refine ⟨_, runTicks_step hrun hstep, by simpa using hdone, by simpa using hsuccess, fun i => ?_⟩
  by_cases hi : i < s.replySize
  · rw [if_pos hi]
    exact (hdecoded hth).stored i (by omega)
  · rw [if_neg hi]
    exact hof.behind i (Nat.not_lt.1 hi)

end Sys2Proof.Machine
